-- ==== Sys2Proof/Word.lean ====
section
/-! DEFINITION. The word types of HRLE: the widths of 00_scope.md R7. -/

namespace Sys2Proof

/-- One byte of buffer memory (20_memory.md R60). -/
abbrev Byte := BitVec 8

/-- One block register, command word, text symbol or u32 artifact field (00_scope.md R7). -/
abbrev Word := BitVec 32

/-- One frequency, or the packed bit length (00_scope.md R7 "frequency width", 10_state.md R32). -/
abbrev DWord := BitVec 64

end Sys2Proof
end

