-- ==== Sys2Proof/Syntax.lean ====
section
/-! DEFINITION. The commands of HRLE, one constructor per row of spec/opcode_table.json
(30_encoding.md R82). No command has an operand field (R80): every operand comes from a register. -/

namespace Sys2Proof

/-- The twelve commands (30_encoding.md R82). -/
inductive Instr where
  /-- NOP (44_control.md R203). -/
  | nop
  /-- FREQ_COUNT (40_huffman_model.md R110). -/
  | freqCount
  /-- FREQ_LOAD (40_huffman_model.md R112). -/
  | freqLoad
  /-- TREE_BUILD (40_huffman_model.md R114). -/
  | treeBuild
  /-- CODE_GEN (40_huffman_model.md R116). -/
  | codeGen
  /-- HUFF_PACK (41_text_codec.md R141). -/
  | huffPack
  /-- TEXT_ENCODE (41_text_codec.md R142). -/
  | textEncode
  /-- IMG_ENCODE (42_image_rle.md R161). -/
  | imgEncode
  /-- IMG_DECODE (42_image_rle.md R163). -/
  | imgDecode
  /-- AUD_ENCODE (43_audio_rle.md R181). -/
  | audEncode
  /-- AUD_DECODE (43_audio_rle.md R185). -/
  | audDecode
  /-- CLEAR_TABLES (40_huffman_model.md R119). -/
  | clearTables
  deriving DecidableEq, Repr

/-- Every command, in opcode order. -/
def Instr.all : List Instr :=
  [.nop, .freqCount, .freqLoad, .treeBuild, .codeGen, .huffPack, .textEncode, .imgEncode,
   .imgDecode, .audEncode, .audDecode, .clearTables]

end Sys2Proof
end

