-- ==== Sys2Proof/Decode.lean ====
section
/-! DEFINITION. The decoder of a command word (30_encoding.md R80 to R82, R85), total and rejecting
by name, and after it the encoder. -/

namespace Sys2Proof

/-- Why a word is ILLEGAL (30_encoding.md R85). -/
inductive DecodeReject where
  /-- bits 31:8 are not all zero -/
  | mbzNotZero
  /-- bits 7:0 hold an opcode in 0x0C to 0xFF -/
  | reservedOpcode
  deriving DecidableEq, Repr

/-- The OP field, bits 7:0 (30_encoding.md R80). -/
def opField (w : Word) : BitVec 8 := w.extractLsb' 0 8

/-- The MBZ field, bits 31:8 (30_encoding.md R80). -/
def mbzField (w : Word) : BitVec 24 := w.extractLsb' 8 24

/-- The opcode map (30_encoding.md R82), read from OP to command. -/
def decodeOp (op : BitVec 8) : Except DecodeReject Instr :=
  match op.toNat with
  | 0x00 => .ok .nop
  | 0x01 => .ok .freqCount
  | 0x02 => .ok .freqLoad
  | 0x03 => .ok .treeBuild
  | 0x04 => .ok .codeGen
  | 0x05 => .ok .huffPack
  | 0x06 => .ok .textEncode
  | 0x07 => .ok .imgEncode
  | 0x08 => .ok .imgDecode
  | 0x09 => .ok .audEncode
  | 0x0A => .ok .audDecode
  | 0x0B => .ok .clearTables
  | _ => .error .reservedOpcode

/-- `decode(w)` of 30_encoding.md R81; both rejections are its ILLEGAL. -/
def decode (w : Word) : Except DecodeReject Instr :=
  if mbzField w = 0#24 then decodeOp (opField w) else .error .mbzNotZero

/-- The decoder on a word whose bits are numbered as spec/opcode_table.json numbers them: bit 0 is
the least significant. A command word has 32 bits and no operand words, so a higher bit that is set
makes it no command word. -/
def decodeTableWord (nbits w : Nat) : Option Instr :=
  let bits := w % 2 ^ nbits
  if bits < 2 ^ 32 then
    match decode (BitVec.ofNat 32 bits) with
    | .ok i => some i
    | .error _ => none
  else none

/-- The opcode of a command (30_encoding.md R82). -/
def opcode : Instr → BitVec 8
  | .nop => 0x00#8
  | .freqCount => 0x01#8
  | .freqLoad => 0x02#8
  | .treeBuild => 0x03#8
  | .codeGen => 0x04#8
  | .huffPack => 0x05#8
  | .textEncode => 0x06#8
  | .imgEncode => 0x07#8
  | .imgDecode => 0x08#8
  | .audEncode => 0x09#8
  | .audDecode => 0x0A#8
  | .clearTables => 0x0B#8

/-- The command word of a command: MBZ zero above OP (30_encoding.md R80). -/
def encode (i : Instr) : Word := 0#24 ++ opcode i

end Sys2Proof
end

