-- ==== Sys2Proof/Config.lean ====
section
/-! DEFINITION. What one HRLE instance fixes (00_scope.md R7) and the values the spec leaves free
(93_implementation_defined.md U1, U2, U4, U5). -/

namespace Sys2Proof

/-- The OPEN parameters of 00_scope.md R7, arguments of the model: they stand in State, and no step
changes them (log 3). -/
structure Params where
  /-- `P_MEM_SIZE`, byte size of the buffer memory, 1 to 2^32 (U10). -/
  memSize : Nat
  /-- `P_MAX_SYMBOLS`, most distinct symbols the frequency table holds, 1 to 2^31 (U11). -/
  maxSymbols : Nat
  /-- `P_MAX_CODE_LEN`, longest code in bits the code table holds, 1 to 64 (U12). -/
  maxCodeLen : Nat
  /-- `P_BASE`, bus address of register offset 0x00 (U13). -/
  base : Nat
  deriving DecidableEq, Repr

/-- The parameter values that 95_test_vectors.md section 0 assumes.
DESIGN CHOICE (log 3): `State.reset` uses them, with `P_BASE` = 0. -/
def Params.vectors : Params :=
  { memSize := 0x10000, maxSymbols := 256, maxCodeLen := 32, base := 0 }

/-- What a byte of buffer memory that nobody has written holds, per address: any value
(20_memory.md R61, U5; log 1). -/
opaque Config.powerUpByte : Nat → Byte

/-- The value of the n-th draw of an unspecified register read (10_state.md R35, U1; log 2). -/
opaque Config.freeWord : Nat → Word

/-- The value of the n-th draw of an unspecified byte (20_memory.md R69, 70_reset_and_hazards.md
R241, U2 and U4; log 2). -/
opaque Config.freeByte : Nat → Byte

end Sys2Proof
end

