-- ==== Sys2Proof/Machine/State.lean ====
section
/-! DEFINITION. The state of HRLE (10_state.md, 20_memory.md R60), plain data, and the state after
reset (70_reset_and_hazards.md R240). -/

namespace Sys2Proof.Machine

/-- The error codes of STATUS.ERR (60_exceptions.md R210). Codes 9 to 15 are never reported. -/
inductive ErrCode where
  | none
  | emptyInput
  | corruptStream
  | invalidParameter
  | capacity
  | sequence
  | illegalCommand
  | addressError
  | noCode
  deriving DecidableEq, Repr

/-- The stored STATUS fields (10_state.md R23). BUSY is the sequencer's state (R38). -/
structure Status where
  done : Bool
  lost : Bool
  sat : Bool
  err : ErrCode
  deriving DecidableEq, Repr

/-- The CTRL fields (10_state.md R24). -/
structure Ctrl where
  irqEn : Bool
  qfloor : Bool
  deriving DecidableEq, Repr

/-- The operand registers, which a host may write and a command reads (10_state.md R25, R26, R28 to
R30). -/
structure OperandRegs where
  srcAddr : Word
  srcLen : Word
  dstAddr : Word
  dstCap : Word
  qstep : Word
  imgWidth : Word
  imgHeight : Word
  audChannels : BitVec 16
  audSwidth : BitVec 16
  audRate : Word
  audFrames : Word
  deriving DecidableEq, Repr

/-- The result registers (10_state.md R32). BITLEN_HI:BITLEN_LO are one 64-bit value. -/
structure ResultRegs where
  pad : BitVec 3
  runs : Word
  count : Word
  bitlen : DWord
  deriving DecidableEq, Repr

/-- One entry of the frequency table (10_state.md R40). -/
structure FreqEntry where
  sym : Word
  freq : DWord
  deriving DecidableEq, Repr

/-- One node of the tree's arena (10_state.md R42). A child is an index into the arena. -/
inductive Node where
  | leaf (sym : Word) (freq : DWord)
  | internal (freq : DWord) (left right : Nat)
  deriving DecidableEq, Repr

/-- The Huffman tree: the arena and the root's index (10_state.md R42). -/
structure Tree where
  nodes : List Node
  root : Nat
  deriving DecidableEq, Repr

/-- A code: its bits in stream order, the first bit first (00_scope.md R12). -/
abbrev Code := List Bool

/-- The internal tables and their validity flags (10_state.md R40 to R46). `ct[i]` is the code of
`ft[i]`'s symbol. -/
structure Tables where
  ft : List FreqEntry
  tree : Tree
  treeValid : Bool
  ct : List Code
  ctValid : Bool
  deriving DecidableEq, Repr

/-- The snapshot taken at acceptance (10_state.md R39). -/
structure Latched where
  regs : OperandRegs
  qfloor : Bool
  deriving DecidableEq, Repr

/-- The command in flight (10_state.md R38). -/
structure InFlight where
  word : Word
  latched : Latched
  deriving DecidableEq, Repr

/-- The sequencer (10_state.md R38). -/
inductive Sequencer where
  | idle
  | busy (f : InFlight)
  deriving DecidableEq, Repr

/-- Buffer memory (20_memory.md R60): the bytes somebody has written, by strictly rising address. An
address that is not listed holds the free value `Config.powerUpByte` of it (log 1). -/
structure Memory where
  cells : List Host.Cell
  deriving DecidableEq, Repr

/-- The width of a register access (10_state.md R37). -/
inductive AccessSize where
  | byte
  | half
  | word
  | dword
  deriving DecidableEq, Repr

/-- The host's steps (00_scope.md R15): register accesses by bus address, buffer-memory accesses by
byte address. A wider memory access is several byte accesses (20_memory.md R66; log 14). -/
inductive HostAction where
  | readReg (size : AccessSize) (addr : Nat)
  | writeReg (size : AccessSize) (addr : Nat) (v : Word)
  | readMem (addr : Nat)
  | writeMem (addr : Nat) (b : Byte)
  deriving DecidableEq, Repr

/-- What may happen next (log 4): the engine's step, a reset pulse, or a step of the host. -/
inductive Event where
  | engine
  | reset
  | host (a : HostAction)
  deriving DecidableEq, Repr

/-- What the last host read returned: the host variable of 30_encoding.md R94 (log 13). -/
inductive Response where
  | none
  | word (v : Word)
  | byte (b : Byte)
  deriving DecidableEq, Repr

/-- The state of one HRLE instance with its buffer memory and its environment's pending events. -/
structure State where
  /-- the instance's parameters (00_scope.md R7; log 3) -/
  params : Params
  /-- CMD, the last accepted word (10_state.md R22) -/
  cmd : Word
  /-- STATUS but for BUSY (10_state.md R23) -/
  status : Status
  /-- CTRL (10_state.md R24) -/
  ctrl : Ctrl
  /-- the operand registers (10_state.md R25, R26, R28 to R30) -/
  regs : OperandRegs
  /-- OUT_LEN (10_state.md R27) -/
  outLen : Word
  /-- PAD, RUNS, COUNT, BITLEN (10_state.md R32) -/
  result : ResultRegs
  /-- TBL_INDEX (10_state.md R33) -/
  tblIndex : Word
  /-- NODE_INDEX (10_state.md R34) -/
  nodeIndex : Word
  /-- FT, TREE, CT and their flags (10_state.md R40 to R46) -/
  tables : Tables
  /-- the sequencer, which is STATUS.BUSY (10_state.md R38) -/
  seq : Sequencer
  /-- buffer memory (20_memory.md R60) -/
  mem : Memory
  /-- the environment's pending events, the model's own field (log 4) -/
  agenda : List Event
  /-- the last host read's answer, the model's own field (log 13) -/
  response : Response
  /-- how many free values have been drawn, the model's own field (log 2) -/
  draws : Nat
  deriving DecidableEq, Repr

/-- Why the machine stops with a fault. Only a host action raises one, never a command. -/
inductive Fault where
  /-- The hazard fault of 70_reset_and_hazards.md R243 (U3): while BUSY, a host write to the byte
  `addr` of the source or destination range. Raised by `hostWriteByte`. Safe: the spec marks the run
  faulted and no claim about it holds. -/
  | hazard (addr : Nat)
  /-- A host access to `addr`, which is at or above `P_MEM_SIZE`: buffer memory has no such byte
  (20_memory.md R60). Raised by `hostReadByte` and `hostWriteByte`. Safe (log 10). -/
  | noSuchByte (addr : Nat)
  deriving DecidableEq, Repr

/-- Why a step has no meaning. -/
inductive Refusal where
  /-- An instruction that has no meaning yet. Raised by no arm of `exec`. Safe. -/
  | notModelled (mnemonic : String)
  /-- A register access that is not an aligned 32-bit access (10_state.md R37, U6: refuse), or that
  lies outside the register window (log 11). Raised by `hostRegisterAccess`. Safe. -/
  | registerAccess (size : AccessSize) (addr : Nat)
  deriving DecidableEq, Repr

/-- STATUS after reset (10_state.md R47). -/
def Status.reset : Status := { done := false, lost := false, sat := false, err := .none }

/-- CTRL after reset (10_state.md R47). -/
def Ctrl.reset : Ctrl := { irqEn := false, qfloor := false }

/-- The operand registers after reset (10_state.md R20's reset column). -/
def OperandRegs.reset : OperandRegs :=
  { srcAddr := 0, srcLen := 0, dstAddr := 0, dstCap := 0, qstep := 500, imgWidth := 0
    imgHeight := 0, audChannels := 1, audSwidth := 2, audRate := 0, audFrames := 0 }

/-- The result registers after reset (10_state.md R20's reset column). -/
def ResultRegs.reset : ResultRegs := { pad := 0, runs := 0, count := 0, bitlen := 0 }

/-- The tables after reset: FT empty, both flags 0 (10_state.md R47). The spec calls the contents of
TREE and CT irrelevant here; DESIGN CHOICE (log 12): empty. -/
def Tables.reset : Tables :=
  { ft := [], tree := { nodes := [], root := 0 }, treeValid := false, ct := [], ctValid := false }

/-- The block after reset (70_reset_and_hazards.md R240) for given parameters, with a buffer memory
nobody has written and an environment that does nothing. -/
def State.resetFor (p : Params) : State :=
  { params := p, cmd := 0, status := .reset, ctrl := .reset, regs := .reset, outLen := 0
    result := .reset, tblIndex := 0, nodeIndex := 0, tables := .reset, seq := .idle
    mem := { cells := [] }, agenda := [], response := .none, draws := 0 }

/-- The machine right after reset (70_reset_and_hazards.md R240).
DESIGN CHOICE (log 3): the parameters are those of 95_test_vectors.md section 0. -/
def State.reset : State := State.resetFor Params.vectors

end Sys2Proof.Machine
end

