-- ==== Sys2Proof/Machine/Ops.lean ====
section
/-! DEFINITION. The shared operations: buffer memory byte by byte and big-endian (00_scope.md R10,
20_memory.md R62, R66), free draws, acceptance (44_control.md R200) and completion (R201), which is
where HRLE reports an error (60_exceptions.md R211, R213). -/

namespace Sys2Proof.Machine

/-! ### Big-endian numbers (20_memory.md R62) -/

/-- The unsigned value of bytes, the first one most significant. -/
def beNat (bs : List Byte) : Nat := bs.foldl (fun acc b => acc * 256 + b.toNat) 0

/-- The `n` low-order bytes of `v`, most significant first: u8, u16be, u32be, u64be
(41_text_codec.md R142). -/
def toBE : Nat → Nat → List Byte
  | 0, _ => []
  | n + 1, v => BitVec.ofNat 8 (v / 256 ^ n) :: toBE n v

/-- `i32be(v)`: the 4 bytes of `v mod 2^32` (43_audio_rle.md R181). -/
def i32be (v : Int) : List Byte := toBE 4 (v % 2 ^ 32).toNat

/-- A `bits`-bit unsigned value read as two's complement (00_scope.md R8 `sext`). -/
def signedOf (bits v : Nat) : Int := if v < 2 ^ (bits - 1) then v else (v : Int) - 2 ^ bits

/-! ### Buffer memory (20_memory.md R60, R61) -/

/-- The listed byte at `a`, if somebody has written it. -/
def findCell : List Host.Cell → Nat → Option Byte
  | [], _ => none
  | c :: cs, a => if c.1 = a then some c.2 else findCell cs a

/-- Put byte `b` at `a`, keeping the addresses strictly rising. -/
def putCell : List Host.Cell → Nat → Byte → List Host.Cell
  | [], a, b => [(a, b)]
  | c :: cs, a, b =>
    if a < c.1 then (a, b) :: c :: cs
    else if a = c.1 then (a, b) :: cs
    else c :: putCell cs a b

/-- What an address holds that nobody has written: any value (20_memory.md R61, U5; log 1). -/
def Memory.unlisted (a : Nat) : Byte := Config.powerUpByte a

/-- `MemByte(a)` (00_scope.md R10). -/
def Memory.read (m : Memory) (a : Nat) : Byte := (findCell m.cells a).getD (Memory.unlisted a)

/-- `MemWrite(a, 1, b)` (00_scope.md R10). -/
def Memory.write (m : Memory) (a : Nat) (b : Byte) : Memory := { cells := putCell m.cells a b }

/-- The bytes at `a`, …, `a + n - 1`. -/
def Memory.bytes (m : Memory) (a n : Nat) : List Byte := (List.range n).map fun i => m.read (a + i)

/-- `MemRead(a, n)`, big-endian (00_scope.md R10). -/
def Memory.readBE (m : Memory) (a n : Nat) : Nat := beNat (m.bytes a n)

/-- `MemReadS(a, n)`, big-endian two's complement (00_scope.md R10). -/
def Memory.readSigned (m : Memory) (a n : Nat) : Int := signedOf (8 * n) (m.readBE a n)

/-- Write bytes at `a`, `a + 1`, … in order. -/
def Memory.writeBytes : Memory → Nat → List Byte → Memory
  | m, _, [] => m
  | m, a, b :: bs => (m.write a b).writeBytes (a + 1) bs

/-- Addresses strictly rising. -/
def risingCells : List Host.Cell → Bool
  | [] => true
  | c :: cs => (match cs with | [] => true | d :: _ => decide (c.1 < d.1)) && risingCells cs

/-- The canonical form: addresses strictly rising. An unlisted address has no listed value
(log 1), so no entry can equal one. -/
def Memory.wf (m : Memory) : Bool := risingCells m.cells

/-! ### The sequencer -/

/-- STATUS.BUSY (10_state.md R38). -/
def State.busy (s : State) : Bool :=
  match s.seq with
  | .idle => false
  | .busy _ => true

/-- The snapshot of 10_state.md R39, as it would be taken now. -/
def State.snapshot (s : State) : Latched := { regs := s.regs, qfloor := s.ctrl.qfloor }

/-- The latched operands a command reads (10_state.md R39).
DESIGN CHOICE (log 6): where nothing is in flight, which no step reaches, the registers as they
stand. -/
def State.latched (s : State) : Latched :=
  match s.seq with
  | .idle => s.snapshot
  | .busy f => f.latched

/-- `accept(w)` (44_control.md R200). -/
def State.accept (s : State) (w : Word) : State :=
  { s with
    cmd := w
    status := { s.status with done := false, sat := false, err := .none }
    seq := .busy { word := w, latched := s.snapshot } }

/-! ### Completion -/

/-- How a command's pseudocode ends (00_scope.md R11): `complete(out)` with its state changes, or
`raise E`. -/
abbrev Result := Except ErrCode (State × Nat)

/-- `if bad: raise e` (00_scope.md R11). -/
def raiseIf (bad : Bool) (e : ErrCode) : Except ErrCode Unit := if bad then .error e else .ok ()

/-- Successful completion (60_exceptions.md R211): the changes already stand in `t`. -/
def State.succeeded (t : State) (out : Nat) : State :=
  { t with
    outLen := BitVec.ofNat 32 out
    status := { t.status with done := true, err := .none }
    seq := .idle }

/-- Failed completion (60_exceptions.md R213): nothing changes but STATUS and OUT_LEN. -/
def State.failed (s : State) (e : ErrCode) : State :=
  { s with
    outLen := 0
    status := { s.status with done := true, err := e }
    seq := .idle }

/-- The state after the completion step (44_control.md R201). -/
def State.finish (s : State) : Result → State
  | .ok (t, out) => t.succeeded out
  | .error e => s.failed e

/-- The completion step of a command (44_control.md R201): always a next state. -/
def completion (s : State) (r : Result) : Host.Outcome State Fault Refusal := .next (s.finish r)

/-! ### A command's state changes -/

/-- The tables become `t` (10_state.md R46). -/
def State.setTables (s : State) (t : Tables) : State := { s with tables := t }

/-- The result registers become `r` (10_state.md R32). -/
def State.setResult (s : State) (r : ResultRegs) : State := { s with result := r }

/-- The operand registers become `r`: IMG_DECODE and AUD_DECODE (10_state.md R29, R30). -/
def State.setRegs (s : State) (r : OperandRegs) : State := { s with regs := r }

/-- STATUS.SAT becomes `b`: AUD_DECODE (43_audio_rle.md R185). -/
def State.setSat (s : State) (b : Bool) : State := { s with status := { s.status with sat := b } }

/-- `bs` is written at DST_ADDR, DST_ADDR + 1, … (20_memory.md R67). -/
def State.storeBytes (s : State) (bs : List Byte) : State :=
  { s with mem := s.mem.writeBytes s.latched.regs.dstAddr.toNat bs }

/-! ### Free values (log 2) -/

/-- A host read that returns an unspecified 32-bit value (10_state.md R35, U1). -/
def State.drawWord (s : State) : State :=
  { s with response := .word (Config.freeWord s.draws), draws := s.draws + 1 }

/-- A host read that returns an unspecified byte (20_memory.md R69, U2). -/
def State.drawByte (s : State) : State :=
  { s with response := .byte (Config.freeByte s.draws), draws := s.draws + 1 }

end Sys2Proof.Machine
end

