-- ==== Sys2Proof/Machine/Operands.lean ====
section
/-! DEFINITION. Every operand form: the register map (10_state.md R20), the source and destination
ranges with their checks (20_memory.md R63, R64), and the input elements (30_encoding.md R87 to
R89). -/

namespace Sys2Proof.Machine

/-! ### The register map (10_state.md R20) -/

/-- The registers of the window. -/
inductive Reg where
  | id | version | cmd | status | ctrl
  | srcAddr | srcLen | dstAddr | dstCap | outLen
  | qstep | imgWidth | imgHeight | audChannels | audSwidth | audRate | audFrames
  | nsym | pad | runs | count | bitlenLo | bitlenHi
  | tblState | treeRoot | tblIndex | tblSym | tblFreqLo | tblFreqHi | tblClen | tblCodeLo | tblCodeHi
  | nodeIndex | nodeKind | nodeFreqLo | nodeFreqHi | nodeLeft | nodeRight | nodeSym
  deriving DecidableEq, Repr

/-- Every register, by rising offset. -/
def Reg.all : List Reg :=
  [.id, .version, .cmd, .status, .ctrl, .srcAddr, .srcLen, .dstAddr, .dstCap, .outLen,
   .qstep, .imgWidth, .imgHeight, .audChannels, .audSwidth, .audRate, .audFrames,
   .nsym, .pad, .runs, .count, .bitlenLo, .bitlenHi, .tblState, .treeRoot,
   .tblIndex, .tblSym, .tblFreqLo, .tblFreqHi, .tblClen, .tblCodeLo, .tblCodeHi,
   .nodeIndex, .nodeKind, .nodeFreqLo, .nodeFreqHi, .nodeLeft, .nodeRight, .nodeSym]

/-- The offset column of 10_state.md R20. -/
def Reg.offset : Reg → Nat
  | .id => 0x00
  | .version => 0x04
  | .cmd => 0x08
  | .status => 0x0C
  | .ctrl => 0x10
  | .srcAddr => 0x14
  | .srcLen => 0x18
  | .dstAddr => 0x1C
  | .dstCap => 0x20
  | .outLen => 0x24
  | .qstep => 0x28
  | .imgWidth => 0x2C
  | .imgHeight => 0x30
  | .audChannels => 0x34
  | .audSwidth => 0x38
  | .audRate => 0x3C
  | .audFrames => 0x40
  | .nsym => 0x44
  | .pad => 0x48
  | .runs => 0x4C
  | .count => 0x50
  | .bitlenLo => 0x54
  | .bitlenHi => 0x58
  | .tblState => 0x5C
  | .treeRoot => 0x60
  | .tblIndex => 0x64
  | .tblSym => 0x68
  | .tblFreqLo => 0x6C
  | .tblFreqHi => 0x70
  | .tblClen => 0x74
  | .tblCodeLo => 0x78
  | .tblCodeHi => 0x7C
  | .nodeIndex => 0x80
  | .nodeKind => 0x84
  | .nodeFreqLo => 0x88
  | .nodeFreqHi => 0x8C
  | .nodeLeft => 0x90
  | .nodeRight => 0x94
  | .nodeSym => 0x98

/-- The register at an offset; none at a reserved one (10_state.md R20). -/
def Reg.ofOffset (off : Nat) : Option Reg := Reg.all.find? fun r => r.offset == off

/-- The registers whose reads keep their meaning while BUSY (10_state.md R35). -/
def Reg.readableWhileBusy : Reg → Bool
  | .id | .version | .cmd | .status | .ctrl => true
  | _ => false

/-! ### Ranges (20_memory.md R63, R64), over unbounded integers -/

/-- `a` lies in the source range. -/
def inSrc (o : OperandRegs) (a : Nat) : Bool :=
  decide (o.srcAddr.toNat ≤ a ∧ a < o.srcAddr.toNat + o.srcLen.toNat)

/-- `a` lies in the destination range. -/
def inDst (o : OperandRegs) (a : Nat) : Bool :=
  decide (o.dstAddr.toNat ≤ a ∧ a < o.dstAddr.toNat + o.dstCap.toNat)

/-- The source range lies in buffer memory. -/
def srcInMemory (p : Params) (o : OperandRegs) : Bool :=
  decide (o.srcAddr.toNat + o.srcLen.toNat ≤ p.memSize)

/-- The destination range lies in buffer memory. -/
def dstInMemory (p : Params) (o : OperandRegs) : Bool :=
  decide (o.dstAddr.toNat + o.dstCap.toNat ≤ p.memSize)

/-- Non-empty source and destination ranges that overlap. -/
def rangesOverlap (o : OperandRegs) : Bool :=
  decide (0 < o.srcLen.toNat ∧ 0 < o.dstCap.toNat ∧
    o.srcAddr.toNat < o.dstAddr.toNat + o.dstCap.toNat ∧
    o.dstAddr.toNat < o.srcAddr.toNat + o.srcLen.toNat)

/-- `check_src()` (20_memory.md R64). -/
def checkSrc (s : State) : Except ErrCode Unit :=
  raiseIf (!srcInMemory s.params s.latched.regs) .addressError

/-- `check_dst()` (20_memory.md R64). -/
def checkDst (s : State) : Except ErrCode Unit := do
  raiseIf (!dstInMemory s.params s.latched.regs) .addressError
  raiseIf (rangesOverlap s.latched.regs) .addressError

/-! ### Latched operands (30_encoding.md R84) -/

/-- SRC_ADDR, latched. -/
def State.src (s : State) : Nat := s.latched.regs.srcAddr.toNat

/-- SRC_LEN, latched. -/
def State.len (s : State) : Nat := s.latched.regs.srcLen.toNat

/-- DST_ADDR, latched. -/
def State.dst (s : State) : Nat := s.latched.regs.dstAddr.toNat

/-- DST_CAP, latched. -/
def State.cap (s : State) : Nat := s.latched.regs.dstCap.toNat

/-- One source byte, `MemByte(SRC_ADDR + i)`. -/
def State.srcByte (s : State) (i : Nat) : Byte := s.mem.read (s.src + i)

/-- `MemRead(SRC_ADDR + i, n)`. -/
def State.srcRead (s : State) (i n : Nat) : Nat := s.mem.readBE (s.src + i) n

/-- `MemReadS(SRC_ADDR + i, n)`. -/
def State.srcReadSigned (s : State) (i n : Nat) : Int := s.mem.readSigned (s.src + i) n

/-! ### Input elements (30_encoding.md R87 to R89) -/

/-- Text symbols (30_encoding.md R87). -/
def State.symbols (s : State) : List Word :=
  (List.range (s.len / 4)).map fun k => BitVec.ofNat 32 (s.srcRead (4 * k) 4)

/-- One pixel (30_encoding.md R88). -/
structure Pixel where
  r : Byte
  g : Byte
  b : Byte
  deriving DecidableEq, Repr

/-- The bytes of a pixel in memory order (30_encoding.md R88). -/
def Pixel.bytes (p : Pixel) : List Byte := [p.r, p.g, p.b]

/-- Pixels in raster order (30_encoding.md R88). -/
def State.pixels (s : State) : List Pixel :=
  (List.range (s.len / 3)).map fun k =>
    { r := s.srcByte (3 * k), g := s.srcByte (3 * k + 1), b := s.srcByte (3 * k + 2) }

/-- Audio samples, signed 16-bit (30_encoding.md R89). -/
def State.samples (s : State) : List Int :=
  (List.range (s.len / 2)).map fun k => s.srcReadSigned (2 * k) 2

end Sys2Proof.Machine
end

