-- ==== Sys2Proof/Machine/ImageRle.lean ====
section
/-! DEFINITION. The run builder that both run-length coders share, and the image commands
(42_image_rle.md R160 to R164). -/

namespace Sys2Proof.Machine

/-! ### Runs (00_scope.md R13) -/

/-- A run of `cnt` may grow (42_image_rle.md R160: below 255; 43_audio_rle.md R182: no cap). -/
def mayExtend (cap : Option Nat) (cnt : Nat) : Bool :=
  match cap with
  | none => true
  | some c => decide (cnt < c)

/-- The scan with running value `cur` and running count `cnt` (42_image_rle.md R160,
43_audio_rle.md R182). -/
def runsFrom {α : Type} [DecidableEq α] (cap : Option Nat) : α → Nat → List α → List (α × Nat)
  | cur, cnt, [] => [(cur, cnt)]
  | cur, cnt, x :: xs =>
    if decide (x = cur) && mayExtend cap cnt then runsFrom cap cur (cnt + 1) xs
    else (cur, cnt) :: runsFrom cap x 1 xs

/-- The runs of a sequence; none of an empty one, which no command scans. -/
def runsOf {α : Type} [DecidableEq α] (cap : Option Nat) : List α → List (α × Nat)
  | [] => []
  | x :: xs => runsFrom cap x 1 xs

/-- The values of runs, each repeated as often as its run is long, in order. -/
def expand {α : Type} (runs : List (α × Nat)) : List α :=
  runs.flatMap fun r => List.replicate r.2 r.1

/-- `Σ_j len_j`. -/
def runTotal {α : Type} (runs : List (α × Nat)) : Nat := (runs.map fun r => r.2).sum

/-! ### Image commands -/

/-- `rle_img(p)` (42_image_rle.md R160). -/
def rleImg (p : List Pixel) : List (Pixel × Nat) := runsOf (some 255) p

/-- The image artifact (30_encoding.md R91). -/
def imgArtifact (w h : Nat) (runs : List (Pixel × Nat)) : List Byte :=
  toBE 4 w ++ toBE 4 h ++ toBE 4 runs.length ++ runs.flatMap fun r => r.1.bytes ++ toBE 1 r.2

/-- The result registers of a run-length command: RUNS and COUNT (10_state.md R32). -/
def ResultRegs.withRuns (r : ResultRegs) (runs count : Nat) : ResultRegs :=
  { r with runs := BitVec.ofNat 32 runs, count := BitVec.ofNat 32 count }

/-- IMG_ENCODE (42_image_rle.md R161). -/
def imgEncode (s : State) : Result := do
  checkSrc s
  checkDst s
  raiseIf (s.len == 0) .emptyInput
  raiseIf (s.len % 3 != 0) .invalidParameter
  let n := s.len / 3
  let w := s.latched.regs.imgWidth.toNat
  let h := s.latched.regs.imgHeight.toNat
  raiseIf (w * h != n) .invalidParameter
  let runs := rleImg s.pixels
  let a := imgArtifact w h runs
  raiseIf (decide (s.cap < a.length)) .capacity
  return ((s.storeBytes a).setResult (s.result.withRuns runs.length n), a.length)

/-- The meaning of IMG_ENCODE. -/
def execImgEncode (s : State) : Host.Outcome State Fault Refusal := completion s (imgEncode s)

/-- What `parse_img` returns (42_image_rle.md R162). -/
structure ParsedImage where
  width : Nat
  height : Nat
  runs : List (Pixel × Nat)
  deriving DecidableEq, Repr

/-- The `rc` run records of an image artifact in the source range (30_encoding.md R91). -/
def State.imgRuns (s : State) (rc : Nat) : List (Pixel × Nat) :=
  (List.range rc).map fun j =>
    ({ r := s.srcByte (12 + 4 * j), g := s.srcByte (13 + 4 * j), b := s.srcByte (14 + 4 * j) },
      (s.srcByte (15 + 4 * j)).toNat)

/-- `parse_img()` (42_image_rle.md R162). -/
def parseImg (s : State) : Except ErrCode ParsedImage := do
  raiseIf (decide (s.len < 12)) .corruptStream
  let w := s.srcRead 0 4
  let h := s.srcRead 4 4
  let rc := s.srcRead 8 4
  raiseIf (decide (s.len < 12 + 4 * rc)) .corruptStream
  raiseIf (decide (12 + 4 * rc < s.len)) .corruptStream
  let runs := s.imgRuns rc
  raiseIf (runs.any fun r => r.2 == 0) .corruptStream
  raiseIf (runTotal runs != w * h) .corruptStream
  return { width := w, height := h, runs := runs }

/-- IMG_WIDTH and IMG_HEIGHT take the artifact's values (42_image_rle.md R163). -/
def OperandRegs.withImage (r : OperandRegs) (w h : Nat) : OperandRegs :=
  { r with imgWidth := BitVec.ofNat 32 w, imgHeight := BitVec.ofNat 32 h }

/-- IMG_DECODE (42_image_rle.md R163). -/
def imgDecode (s : State) : Result := do
  checkSrc s
  checkDst s
  let a ← parseImg s
  let n := a.width * a.height
  raiseIf (decide (s.cap < 3 * n)) .capacity
  let out := (expand a.runs).flatMap Pixel.bytes
  return (((s.storeBytes out).setRegs (s.regs.withImage a.width a.height)).setResult
    (s.result.withRuns a.runs.length n), 3 * n)

/-- The meaning of IMG_DECODE. -/
def execImgDecode (s : State) : Host.Outcome State Fault Refusal := completion s (imgDecode s)

end Sys2Proof.Machine
end

