-- ==== Sys2Proof/Machine/AudioRle.lean ====
section
/-! DEFINITION. The audio run-length commands (43_audio_rle.md R180 to R186). -/

namespace Sys2Proof.Machine

/-- `quantize(s, q, f)` (43_audio_rle.md R180): truncating division for f = 0, floor division for
f = 1 (CTRL.QFLOOR). -/
def quantize (x : Int) (q : Nat) (f : Bool) : Int :=
  if f then Int.fdiv x q * q else Int.tdiv x q * q

/-- `rle_aud(v)` (43_audio_rle.md R182): no cap. -/
def rleAud (v : List Int) : List (Int × Nat) := runsOf none v

/-- `clamp16(x)` (43_audio_rle.md R183). -/
def clamp16 (x : Int) : Int := max (-32768) (min 32767 x)

/-- The four AudioParams (00_scope.md R14). -/
structure AudioParams where
  channels : Nat
  swidth : Nat
  rate : Nat
  frames : Nat
  deriving DecidableEq, Repr

/-- The latched AudioParams registers (10_state.md R30, 30_encoding.md R84). -/
def State.audioParams (s : State) : AudioParams :=
  { channels := s.latched.regs.audChannels.toNat
    swidth := s.latched.regs.audSwidth.toNat
    rate := s.latched.regs.audRate.toNat
    frames := s.latched.regs.audFrames.toNat }

/-- The audio artifact (30_encoding.md R92). -/
def audArtifact (p : AudioParams) (q : Nat) (runs : List (Int × Nat)) : List Byte :=
  toBE 2 p.channels ++ toBE 2 p.swidth ++ toBE 4 p.rate ++ toBE 4 p.frames ++ toBE 4 q ++
    toBE 4 runs.length ++ runs.flatMap fun r => i32be r.1 ++ toBE 4 r.2

/-- AUD_ENCODE (43_audio_rle.md R181). -/
def audEncode (s : State) : Result := do
  checkSrc s
  checkDst s
  raiseIf (s.len == 0) .emptyInput
  raiseIf (s.len % 2 != 0) .invalidParameter
  let q := s.latched.regs.qstep.toNat
  raiseIf (q == 0 || decide (0x7FFFFFFF < q)) .invalidParameter
  let ap := s.audioParams
  raiseIf (ap.channels == 0) .invalidParameter
  let n := s.len / 2
  raiseIf (ap.frames * ap.channels != n) .invalidParameter
  let v := s.samples.map fun x => quantize x q s.latched.qfloor
  let runs := rleAud v
  let a := audArtifact ap q runs
  raiseIf (decide (s.cap < a.length)) .capacity
  return ((s.storeBytes a).setResult (s.result.withRuns runs.length n), a.length)

/-- The meaning of AUD_ENCODE. -/
def execAudEncode (s : State) : Host.Outcome State Fault Refusal := completion s (audEncode s)

/-- What `parse_aud` returns (43_audio_rle.md R184). -/
structure ParsedAudio where
  params : AudioParams
  qstep : Nat
  runs : List (Int × Nat)
  deriving DecidableEq, Repr

/-- The `rc` run records of an audio artifact in the source range (30_encoding.md R92). -/
def State.audRuns (s : State) (rc : Nat) : List (Int × Nat) :=
  (List.range rc).map fun j => (s.srcReadSigned (20 + 8 * j) 4, s.srcRead (24 + 8 * j) 4)

/-- `parse_aud()` (43_audio_rle.md R184). quant_step is read and not checked. -/
def parseAud (s : State) : Except ErrCode ParsedAudio := do
  raiseIf (decide (s.len < 20)) .corruptStream
  let p : AudioParams :=
    { channels := s.srcRead 0 2, swidth := s.srcRead 2 2, rate := s.srcRead 4 4
      frames := s.srcRead 8 4 }
  let q := s.srcRead 12 4
  let rc := s.srcRead 16 4
  raiseIf (decide (s.len < 20 + 8 * rc)) .corruptStream
  raiseIf (decide (20 + 8 * rc < s.len)) .corruptStream
  let runs := s.audRuns rc
  raiseIf (runs.any fun r => r.2 == 0) .corruptStream
  raiseIf (runTotal runs != p.frames * p.channels) .corruptStream
  return { params := p, qstep := q, runs := runs }

/-- A run value that `clamp16` changes (43_audio_rle.md R185's SAT). -/
def outOfRange (x : Int) : Bool := decide (x < -32768) || decide (32767 < x)

/-- `MemWrite(…, 2, x mod 2^16)`: the two bytes of one sample (43_audio_rle.md R185). -/
def sampleBytes (x : Int) : List Byte := toBE 2 (x % 2 ^ 16).toNat

/-- The AUD_* registers take the artifact's params (43_audio_rle.md R185). -/
def OperandRegs.withAudio (r : OperandRegs) (p : AudioParams) : OperandRegs :=
  { r with
    audChannels := BitVec.ofNat 16 p.channels, audSwidth := BitVec.ofNat 16 p.swidth
    audRate := BitVec.ofNat 32 p.rate, audFrames := BitVec.ofNat 32 p.frames }

/-- AUD_DECODE (43_audio_rle.md R185). -/
def audDecode (s : State) : Result := do
  checkSrc s
  checkDst s
  let a ← parseAud s
  let m := a.params.frames * a.params.channels
  raiseIf (decide (s.cap < 2 * m)) .capacity
  let out := (expand (a.runs.map fun r => (clamp16 r.1, r.2))).flatMap sampleBytes
  return ((((s.storeBytes out).setRegs (s.regs.withAudio a.params)).setResult
    (s.result.withRuns a.runs.length m)).setSat (a.runs.any fun r => outOfRange r.1), 2 * m)

/-- The meaning of AUD_DECODE. -/
def execAudDecode (s : State) : Host.Outcome State Fault Refusal := completion s (audDecode s)

end Sys2Proof.Machine
end

