-- ==== Sys2Proof/Machine/Control.lean ====
section
/-! DEFINITION. The control commands (44_control.md R203, R204). -/

namespace Sys2Proof.Machine

/-- NOP (44_control.md R203): `complete(0)`. -/
def nop (s : State) : Result := .ok (s, 0)

/-- The meaning of NOP. -/
def execNop (s : State) : Host.Outcome State Fault Refusal := completion s (nop s)

/-- An illegal word (44_control.md R204): `raise ILLEGAL_COMMAND`. -/
def illegal : Result := .error .illegalCommand

/-- The completion of an illegal word. -/
def execIllegal (s : State) : Host.Outcome State Fault Refusal := completion s illegal

end Sys2Proof.Machine
end

