-- ==== Sys2Proof/Machine/HuffmanModel.lean ====
section
/-! DEFINITION. The Huffman model commands (40_huffman_model.md R110 to R119). -/

namespace Sys2Proof.Machine

/-! ### Frequency table -/

/-- Count one more occurrence of `x` in a table with ascending symbols. -/
def bump (x : Word) : List FreqEntry → List FreqEntry
  | [] => [{ sym := x, freq := 1 }]
  | e :: es =>
    if x.toNat < e.sym.toNat then { sym := x, freq := 1 } :: e :: es
    else if x = e.sym then { e with freq := e.freq + 1 } :: es
    else e :: bump x es

/-- `count_freq(syms)` (40_huffman_model.md R111). -/
def countFreq (syms : List Word) : List FreqEntry := syms.foldl (fun ft x => bump x ft) []

/-- A new frequency table: the tree and the codes are no longer valid (10_state.md R46). -/
def Tables.withFreq (t : Tables) (ft : List FreqEntry) : Tables :=
  { t with ft := ft, treeValid := false, ctValid := false }

/-- FREQ_COUNT (40_huffman_model.md R110). -/
def freqCount (s : State) : Result := do
  checkSrc s
  raiseIf (s.len == 0) .emptyInput
  raiseIf (s.len % 4 != 0) .invalidParameter
  let n := s.len / 4
  let f := countFreq s.symbols
  raiseIf (decide (s.params.maxSymbols < f.length)) .capacity
  return ((s.setTables (s.tables.withFreq f)).setResult
    { s.result with count := BitVec.ofNat 32 n }, 0)

/-- The meaning of FREQ_COUNT. -/
def execFreqCount (s : State) : Host.Outcome State Fault Refusal := completion s (freqCount s)

/-- Symbols strictly ascending (10_state.md R40). -/
def ascending : List FreqEntry → Bool
  | [] => true
  | e :: es =>
    (match es with | [] => true | d :: _ => decide (e.sym.toNat < d.sym.toNat)) && ascending es

/-- `Σ_i FT[i].freq`, unbounded (10_state.md R41). -/
def freqSum (ft : List FreqEntry) : Nat := (ft.map fun e => e.freq.toNat).sum

/-- The `n` table entries of a text artifact's header (30_encoding.md R90). -/
def State.headerEntries (s : State) (n : Nat) : List FreqEntry :=
  (List.range n).map fun i =>
    { sym := BitVec.ofNat 32 (s.srcRead (4 + 12 * i) 4)
      freq := BitVec.ofNat 64 (s.srcRead (8 + 12 * i) 8) }

/-- FREQ_LOAD (40_huffman_model.md R112). -/
def freqLoad (s : State) : Result := do
  checkSrc s
  raiseIf (decide (s.len < 4)) .corruptStream
  let n := s.srcRead 0 4
  raiseIf (n == 0) .corruptStream
  raiseIf (decide (s.len < 4 + 12 * n)) .corruptStream
  let f := s.headerEntries n
  raiseIf (!ascending f) .corruptStream
  raiseIf (decide (2 ^ 64 - 1 < freqSum f)) .corruptStream
  raiseIf (decide (s.params.maxSymbols < n)) .capacity
  return (s.setTables (s.tables.withFreq f), 0)

/-- The meaning of FREQ_LOAD. -/
def execFreqLoad (s : State) : Host.Outcome State Fault Refusal := completion s (freqLoad s)

/-! ### Tree builder -/

/-- A node's frequency. -/
def Node.freq : Node → DWord
  | .leaf _ f => f
  | .internal f _ _ => f

/-- Is the node a leaf? -/
def Node.isLeaf : Node → Bool
  | .leaf _ _ => true
  | .internal _ _ _ => false

/-- `node[x].freq` (40_huffman_model.md R115). -/
def nodeFreq (nodes : List Node) (x : Nat) : DWord := (nodes[x]?.map Node.freq).getD 0

/-- `x` comes before `y` in the priority queue: lowest frequency, then lowest index
(40_huffman_model.md R115). -/
def queueBefore (nodes : List Node) (x y : Nat) : Bool :=
  decide ((nodeFreq nodes x).toNat < (nodeFreq nodes y).toNat) ||
    (nodeFreq nodes x == nodeFreq nodes y && decide (x < y))

/-- Take the first index out of the queue, a set of node indices (40_huffman_model.md R115). -/
def popMin (nodes : List Node) : List Nat → Option (Nat × List Nat)
  | [] => none
  | x :: xs =>
    match popMin nodes xs with
    | none => some (x, [])
    | some (m, rest) => if queueBefore nodes x m then some (x, xs) else some (m, x :: rest)

/-- One merge: pop `a`, pop `b`, append the internal node with children `a` (left) and `b` (right),
and queue it (40_huffman_model.md R115). -/
def mergeStep (nodes : List Node) (q : List Nat) : Option (List Node × List Nat) :=
  match popMin nodes q with
  | none => none
  | some (a, q1) =>
    match popMin nodes q1 with
    | none => none
    | some (b, q2) =>
      some (nodes ++ [.internal (nodeFreq nodes a + nodeFreq nodes b) a b], q2 ++ [nodes.length])

/-- Up to `k` merges (40_huffman_model.md R115's loop). -/
def mergeLoop : Nat → List Node → List Nat → List Node
  | 0, nodes, _ => nodes
  | k + 1, nodes, q =>
    match mergeStep nodes q with
    | none => nodes
    | some (nodes', q') => mergeLoop k nodes' q'

/-- The leaves, in FT order (10_state.md R42). -/
def leavesOf (ft : List FreqEntry) : List Node := ft.map fun e => .leaf e.sym e.freq

/-- `build_tree(FT)` (40_huffman_model.md R115). -/
def buildTree (ft : List FreqEntry) : Tree :=
  { nodes := mergeLoop (ft.length - 1) (leavesOf ft) (List.range ft.length)
    root := 2 * ft.length - 2 }

/-- A new tree: valid, and the codes are no longer valid (10_state.md R46). -/
def Tables.withTree (t : Tables) (tr : Tree) : Tables :=
  { t with tree := tr, treeValid := true, ctValid := false }

/-- TREE_BUILD (40_huffman_model.md R114). -/
def treeBuild (s : State) : Result := do
  raiseIf s.tables.ft.isEmpty .emptyInput
  return (s.setTables (s.tables.withTree (buildTree s.tables.ft)), 0)

/-- The meaning of TREE_BUILD. -/
def execTreeBuild (s : State) : Host.Outcome State Fault Refusal := completion s (treeBuild s)

/-! ### Code-table generator -/

/-- `walk(x, p)` of 40_huffman_model.md R117 with at most `fuel` edges below `x`: the leaves reached,
each with the bit string that leads to it. -/
def walk (nodes : List Node) : Nat → Nat → Code → List (Nat × Code)
  | 0, _, _ => []
  | fuel + 1, x, p =>
    match nodes[x]? with
    | none => []
    | some (.leaf _ _) => [(x, p)]
    | some (.internal _ l r) => walk nodes fuel l (p ++ [false]) ++ walk nodes fuel r (p ++ [true])

/-- The code that a walk gave leaf `i`. A leaf the walk does not reach, which no tree that
`buildTree` makes has, gets the empty string (log 17). -/
def codeAt (ws : List (Nat × Code)) (i : Nat) : Code :=
  ((ws.find? fun w => w.1 == i).map fun w => w.2).getD []

/-- The number of leaves in the arena, n. -/
def Tree.leafCount (t : Tree) : Nat := (t.nodes.filter Node.isLeaf).length

/-- `build_codes(TREE)` (40_huffman_model.md R117). The arena's length bounds every path. -/
def buildCodes (t : Tree) : List Code :=
  if t.leafCount = 1 then [[false]]
  else
    let ws := walk t.nodes t.nodes.length t.root []
    (List.range t.leafCount).map (codeAt ws)

/-- `max_i len(C[i])`. -/
def maxLen (cs : List Code) : Nat := (cs.map List.length).foldr max 0

/-- A new code table, valid (10_state.md R46). -/
def Tables.withCodes (t : Tables) (c : List Code) : Tables := { t with ct := c, ctValid := true }

/-- CODE_GEN (40_huffman_model.md R116). -/
def codeGen (s : State) : Result := do
  raiseIf (!s.tables.treeValid) .sequence
  let c := buildCodes s.tables.tree
  raiseIf (decide (s.params.maxCodeLen < maxLen c)) .capacity
  return (s.setTables (s.tables.withCodes c), 0)

/-- The meaning of CODE_GEN. -/
def execCodeGen (s : State) : Host.Outcome State Fault Refusal := completion s (codeGen s)

/-! ### Table reset -/

/-- CLEAR_TABLES (40_huffman_model.md R119). -/
def clearTables (s : State) : Result := .ok (s.setTables (s.tables.withFreq []), 0)

/-- The meaning of CLEAR_TABLES. -/
def execClearTables (s : State) : Host.Outcome State Fault Refusal := completion s (clearTables s)

end Sys2Proof.Machine
end

