-- ==== Sys2Proof/Machine/TextCodec.lean ====
section
/-! DEFINITION. The text codec commands (41_text_codec.md R140 to R143) and the packed code bits
(30_encoding.md R93). -/

namespace Sys2Proof.Machine

/-- A byte from up to 8 stream bits, the first at bit 7, missing ones zero (30_encoding.md R93). -/
def byteOfBits (bits : List Bool) : Byte :=
  BitVec.ofNat 8 ((List.range 8).map fun t => (bits.getD t false).toNat * 2 ^ (7 - t)).sum

/-- The first `m` bytes of a bit stream. -/
def packBytes : Nat → List Bool → List Byte
  | 0, _ => []
  | m + 1, bits => byteOfBits (bits.take 8) :: packBytes m (bits.drop 8)

/-- What `pack_bits` returns (30_encoding.md R93): the bytes, the bit length B, the padding P. -/
structure Packed where
  bytes : List Byte
  bitLen : Nat
  pad : Nat
  deriving DecidableEq, Repr

/-- `pack_bits(bits)` (30_encoding.md R93). -/
def packBits (bits : List Bool) : Packed :=
  { bytes := packBytes ((bits.length + 7) / 8) bits
    bitLen := bits.length
    pad := (8 - bits.length % 8) % 8 }

/-- `idx(s)` (41_text_codec.md R140): the entry of a symbol, none where FT has none. -/
def symIndex (ft : List FreqEntry) (x : Word) : Option Nat := ft.findIdx? fun e => e.sym == x

/-- `CT[idx(s)]`. A symbol without an entry never reaches this (41_text_codec.md R141 raises
NO_CODE); it gets the empty string (log 17). -/
def codeOf (ft : List FreqEntry) (ct : List Code) (x : Word) : Code :=
  match symIndex ft x with
  | some i => ct.getD i []
  | none => []

/-- `pack(syms, FT, CT)` (41_text_codec.md R140). -/
def pack (syms : List Word) (ft : List FreqEntry) (ct : List Code) : Packed :=
  packBits (syms.flatMap (codeOf ft ct))

/-- The result registers of a pack (41_text_codec.md R141, R142): PAD, BITLEN, COUNT. -/
def ResultRegs.withPack (r : ResultRegs) (p : Packed) (n : Nat) : ResultRegs :=
  { r with
    pad := BitVec.ofNat 3 p.pad, bitlen := BitVec.ofNat 64 p.bitLen, count := BitVec.ofNat 32 n }

/-- HUFF_PACK (41_text_codec.md R141). -/
def huffPack (s : State) : Result := do
  checkSrc s
  checkDst s
  raiseIf (!s.tables.ctValid) .sequence
  raiseIf (s.len == 0) .emptyInput
  raiseIf (s.len % 4 != 0) .invalidParameter
  let n := s.len / 4
  let syms := s.symbols
  raiseIf (syms.any fun x => (symIndex s.tables.ft x).isNone) .noCode
  let p := pack syms s.tables.ft s.tables.ct
  raiseIf (decide (s.cap < p.bytes.length)) .capacity
  return ((s.storeBytes p.bytes).setResult (s.result.withPack p n), p.bytes.length)

/-- The meaning of HUFF_PACK. -/
def execHuffPack (s : State) : Host.Outcome State Fault Refusal := completion s (huffPack s)

/-- The bytes of one table entry of a text artifact (30_encoding.md R90). -/
def FreqEntry.bytes (e : FreqEntry) : List Byte := toBE 4 e.sym.toNat ++ toBE 8 e.freq.toNat

/-- The text artifact (30_encoding.md R90). -/
def textArtifact (ft : List FreqEntry) (p : Packed) : List Byte :=
  toBE 4 ft.length ++ ft.flatMap FreqEntry.bytes ++ toBE 1 p.pad ++ toBE 4 p.bytes.length ++ p.bytes

/-- TEXT_ENCODE (41_text_codec.md R142). -/
def textEncode (s : State) : Result := do
  checkSrc s
  checkDst s
  raiseIf (s.len == 0) .emptyInput
  raiseIf (s.len % 4 != 0) .invalidParameter
  let n := s.len / 4
  let syms := s.symbols
  let f := countFreq syms
  raiseIf (decide (s.params.maxSymbols < f.length)) .capacity
  let t := buildTree f
  let c := buildCodes t
  raiseIf (decide (s.params.maxCodeLen < maxLen c)) .capacity
  let p := pack syms f c
  let a := textArtifact f p
  raiseIf (decide (s.cap < a.length)) .capacity
  let tables : Tables := { ft := f, tree := t, treeValid := true, ct := c, ctValid := true }
  return (((s.storeBytes a).setTables tables).setResult (s.result.withPack p n), a.length)

/-- The meaning of TEXT_ENCODE. -/
def execTextEncode (s : State) : Host.Outcome State Fault Refusal := completion s (textEncode s)

end Sys2Proof.Machine
end

