-- ==== Sys2Proof/Machine/Dispatch.lean ====
section
/-! DEFINITION. The dispatch from command to meaning (44_control.md R202). -/

namespace Sys2Proof.Machine

def exec (i : Instr) (s : State) : Host.Outcome State Fault Refusal :=
  match i with
  | .nop => Sys2Proof.Machine.execNop s
  | .freqCount => Sys2Proof.Machine.execFreqCount s
  | .freqLoad => Sys2Proof.Machine.execFreqLoad s
  | .treeBuild => Sys2Proof.Machine.execTreeBuild s
  | .codeGen => Sys2Proof.Machine.execCodeGen s
  | .huffPack => Sys2Proof.Machine.execHuffPack s
  | .textEncode => Sys2Proof.Machine.execTextEncode s
  | .imgEncode => Sys2Proof.Machine.execImgEncode s
  | .imgDecode => Sys2Proof.Machine.execImgDecode s
  | .audEncode => Sys2Proof.Machine.execAudEncode s
  | .audDecode => Sys2Proof.Machine.execAudDecode s
  | .clearTables => Sys2Proof.Machine.execClearTables s

end Sys2Proof.Machine
end

