-- ==== Sys2Proof/Machine/Engine.lean ====
section
/-! DEFINITION. The engine's step (44_control.md R201) and the fetch of the word in flight. -/

namespace Sys2Proof.Machine

/-- The engine's turn: while BUSY, the completion of the word in flight (44_control.md R201, R202,
R204); while IDLE the engine has no step and the block waits (10_state.md R38). -/
def engineTurn (s : State) : Host.Outcome State Fault Refusal :=
  match s.seq with
  | .idle => .next s
  | .busy f =>
    match decode f.word with
    | .ok i => exec i s
    | .error _ => execIllegal s

/-- The first event of the agenda is taken (log 4). -/
def State.popEvent (s : State) : State := { s with agenda := s.agenda.tail }

/-- The agenda in which the engine moves next and the rest follows. An empty agenda is the engine's
turn already. -/
def engineFirst : List Event → List Event
  | [] => []
  | e :: es => .engine :: e :: es

/-- The word `w` in flight, as its acceptance leaves it (44_control.md R200), with the engine to
move next. -/
def State.inFlightNext (s : State) (w : Word) : State :=
  { s.accept w with agenda := engineFirst s.agenda }

end Sys2Proof.Machine
end

