-- ==== Sys2Proof/Machine/Flags.lean ====
section
/-! DEFINITION. The status and control words and the interrupt wire (10_state.md R23, R24, R48;
60_exceptions.md R210, R220). HRLE has no condition codes. -/

namespace Sys2Proof.Machine

/-- The numbers of 60_exceptions.md R210. -/
def ErrCode.code : ErrCode → BitVec 4
  | .none => 0
  | .emptyInput => 1
  | .corruptStream => 2
  | .invalidParameter => 3
  | .capacity => 4
  | .sequence => 5
  | .illegalCommand => 6
  | .addressError => 7
  | .noCode => 8

/-- The STATUS word (10_state.md R23): ERR at 11:8, SAT, LOST, DONE, BUSY at 3:0, the rest zero. -/
def State.statusWord (s : State) : Word :=
  0#20 ++ s.status.err.code ++ 0#4 ++ BitVec.ofBool s.status.sat ++ BitVec.ofBool s.status.lost ++
    BitVec.ofBool s.status.done ++ BitVec.ofBool s.busy

/-- The CTRL word (10_state.md R24): QFLOOR, IRQ_EN at 1:0, the rest zero. -/
def State.ctrlWord (s : State) : Word :=
  0#30 ++ BitVec.ofBool s.ctrl.qfloor ++ BitVec.ofBool s.ctrl.irqEn

/-- A host write to STATUS: write 1 to clear DONE (bit 1) and LOST (bit 2), nothing else
(10_state.md R23, R36). -/
def Status.writeOneToClear (st : Status) (v : Word) : Status :=
  { st with done := st.done && !v.getLsbD 1, lost := st.lost && !v.getLsbD 2 }

/-- A host write to CTRL (10_state.md R24, R36). -/
def Ctrl.ofWord (v : Word) : Ctrl := { irqEn := v.getLsbD 0, qfloor := v.getLsbD 1 }

/-- The IRQ output (60_exceptions.md R220). -/
def State.irq (s : State) : Bool := s.ctrl.irqEn && s.status.done

end Sys2Proof.Machine
end

