-- ==== Sys2Proof/Machine/HostPort.lean ====
section
/-! DEFINITION. What the outside does to the block: register reads and writes (10_state.md R31, R33
to R37), buffer-memory accesses (20_memory.md R69), and reset (70_reset_and_hazards.md R240,
R241). -/

namespace Sys2Proof.Machine

/-! ### Derived registers -/

/-- TBL_STATE (10_state.md R31). -/
def Tables.stateWord (t : Tables) : Word :=
  0#29 ++ BitVec.ofBool t.ctValid ++ BitVec.ofBool t.treeValid ++ BitVec.ofBool (!t.ft.isEmpty)

/-- TREE_ROOT (10_state.md R31). -/
def Tables.rootWord (t : Tables) : Word :=
  if t.treeValid then BitVec.ofNat 32 t.tree.root else 0xFFFFFFFF#32

/-- `num(c)`: the first bit is most significant (00_scope.md R12). -/
def codeNum (c : Code) : Nat := c.foldl (fun acc b => 2 * acc + b.toNat) 0

/-- The FT entry that TBL_INDEX selects (10_state.md R33). -/
def State.tblEntry (s : State) : Option FreqEntry := s.tables.ft[s.tblIndex.toNat]?

/-- The frequency that TBL_INDEX selects, 0 past the table (10_state.md R33). -/
def State.tblFreq (s : State) : DWord := (s.tblEntry.map FreqEntry.freq).getD 0

/-- The code that TBL_INDEX selects: none past the table or while CT_VALID = 0 (10_state.md R33). -/
def State.tblCode (s : State) : Option Code :=
  if s.tables.ctValid && s.tblEntry.isSome then some (s.tables.ct.getD s.tblIndex.toNat [])
  else none

/-- `zext_64(num(CT[i]))`, 0 where no code is selected (10_state.md R33). -/
def State.tblCodeValue (s : State) : DWord :=
  (s.tblCode.map fun c => BitVec.ofNat 64 (codeNum c)).getD 0

/-- The node that NODE_INDEX selects, none at or past `m` (10_state.md R34). -/
def State.selectedNode (s : State) : Option Node :=
  if s.tables.treeValid && decide (s.nodeIndex.toNat < 2 * s.tables.ft.length - 1) then
    s.tables.tree.nodes[s.nodeIndex.toNat]?
  else none

/-- NODE_KIND (10_state.md R34). -/
def nodeKind : Option Node → Word
  | none => 0
  | some (.leaf _ _) => 1
  | some (.internal _ _ _) => 2

/-- NODE_FREQ (10_state.md R34). -/
def nodeFreqOf : Option Node → DWord
  | none => 0
  | some nd => nd.freq

/-- NODE_LEFT (10_state.md R34). -/
def nodeLeft : Option Node → Word
  | none => 0
  | some (.leaf _ _) => 0xFFFFFFFF#32
  | some (.internal _ l _) => BitVec.ofNat 32 l

/-- NODE_RIGHT (10_state.md R34). -/
def nodeRight : Option Node → Word
  | none => 0
  | some (.leaf _ _) => 0xFFFFFFFF#32
  | some (.internal _ _ r) => BitVec.ofNat 32 r

/-- NODE_SYM (10_state.md R34). -/
def nodeSym : Option Node → Word
  | none => 0
  | some (.leaf x _) => x
  | some (.internal _ _ _) => 0

/-! ### Register reads -/

/-- A register's value by the rules of 10_state.md R21 to R34. -/
def State.readReg (s : State) : Reg → Word
  | .id => 0x48524C45#32
  | .version => 0x00000001#32
  | .cmd => s.cmd
  | .status => s.statusWord
  | .ctrl => s.ctrlWord
  | .srcAddr => s.regs.srcAddr
  | .srcLen => s.regs.srcLen
  | .dstAddr => s.regs.dstAddr
  | .dstCap => s.regs.dstCap
  | .outLen => s.outLen
  | .qstep => s.regs.qstep
  | .imgWidth => s.regs.imgWidth
  | .imgHeight => s.regs.imgHeight
  | .audChannels => s.regs.audChannels.setWidth 32
  | .audSwidth => s.regs.audSwidth.setWidth 32
  | .audRate => s.regs.audRate
  | .audFrames => s.regs.audFrames
  | .nsym => BitVec.ofNat 32 s.tables.ft.length
  | .pad => s.result.pad.setWidth 32
  | .runs => s.result.runs
  | .count => s.result.count
  | .bitlenLo => s.result.bitlen.extractLsb' 0 32
  | .bitlenHi => s.result.bitlen.extractLsb' 32 32
  | .tblState => s.tables.stateWord
  | .treeRoot => s.tables.rootWord
  | .tblIndex => s.tblIndex
  | .tblSym => (s.tblEntry.map FreqEntry.sym).getD 0
  | .tblFreqLo => s.tblFreq.extractLsb' 0 32
  | .tblFreqHi => s.tblFreq.extractLsb' 32 32
  | .tblClen => BitVec.ofNat 32 ((s.tblCode.map List.length).getD 0)
  | .tblCodeLo => s.tblCodeValue.extractLsb' 0 32
  | .tblCodeHi => s.tblCodeValue.extractLsb' 32 32
  | .nodeIndex => s.nodeIndex
  | .nodeKind => nodeKind s.selectedNode
  | .nodeFreqLo => (nodeFreqOf s.selectedNode).extractLsb' 0 32
  | .nodeFreqHi => (nodeFreqOf s.selectedNode).extractLsb' 32 32
  | .nodeLeft => nodeLeft s.selectedNode
  | .nodeRight => nodeRight s.selectedNode
  | .nodeSym => nodeSym s.selectedNode

/-- A host read returns `v`. -/
def State.respond (s : State) (r : Response) : State := { s with response := r }

/-- Host register read of an aligned offset of the window (10_state.md R35). A reserved offset reads
0, also while BUSY (log 7). -/
def hostReadReg (s : State) (off : Nat) : State :=
  match Reg.ofOffset off with
  | none => s.respond (.word 0)
  | some r => if s.busy && !r.readableWhileBusy then s.drawWord else s.respond (.word (s.readReg r))

/-! ### Register writes -/

/-- A host CMD write (10_state.md R22): accepted while IDLE, else ignored with LOST set. -/
def State.writeCmd (s : State) (v : Word) : State :=
  if s.busy then { s with status := { s.status with lost := true } } else s.accept v

/-- A write to an RW register other than CMD, STATUS and CTRL; any other register ignores it
(10_state.md R36). -/
def State.writePlain (s : State) (r : Reg) (v : Word) : State :=
  match r with
  | .srcAddr => { s with regs := { s.regs with srcAddr := v } }
  | .srcLen => { s with regs := { s.regs with srcLen := v } }
  | .dstAddr => { s with regs := { s.regs with dstAddr := v } }
  | .dstCap => { s with regs := { s.regs with dstCap := v } }
  | .qstep => { s with regs := { s.regs with qstep := v } }
  | .imgWidth => { s with regs := { s.regs with imgWidth := v } }
  | .imgHeight => { s with regs := { s.regs with imgHeight := v } }
  | .audChannels => { s with regs := { s.regs with audChannels := v.extractLsb' 0 16 } }
  | .audSwidth => { s with regs := { s.regs with audSwidth := v.extractLsb' 0 16 } }
  | .audRate => { s with regs := { s.regs with audRate := v } }
  | .audFrames => { s with regs := { s.regs with audFrames := v } }
  | .tblIndex => { s with tblIndex := v }
  | .nodeIndex => { s with nodeIndex := v }
  | _ => s

/-- Host register write of an aligned offset of the window (10_state.md R36). -/
def hostWriteReg (s : State) (off : Nat) (v : Word) : State :=
  match Reg.ofOffset off with
  | none => s
  | some .cmd => s.writeCmd v
  | some .status => { s with status := s.status.writeOneToClear v }
  | some .ctrl => { s with ctrl := Ctrl.ofWord v }
  | some r => if s.busy then s else s.writePlain r v

/-- An aligned 32-bit access inside the window, given its bus address (10_state.md R20, R37). Any
other access is refused (R37, U6; log 11). -/
def hostRegisterAccess (s : State) (size : AccessSize) (addr : Nat) (act : Nat → State) :
    Host.Outcome State Fault Refusal :=
  let off := addr - s.params.base
  if size = .word ∧ s.params.base ≤ addr ∧ off < 256 ∧ off % 4 = 0 then .next (act off)
  else .refused (.registerAccess size addr)

/-! ### Buffer-memory accesses (20_memory.md R69) -/

/-- The byte at `a` may be written by the command in flight: it lies in the latched destination
range. A byte that also lies in the source range is never written by the engine (log 8). -/
def State.beingWritten (s : State) (a : Nat) : Bool :=
  s.busy && inDst s.latched.regs a && !inSrc s.latched.regs a

/-- The byte at `a` lies in a range the host must not write now (70_reset_and_hazards.md R243;
log 9). -/
def State.hazardAt (s : State) (a : Nat) : Bool :=
  s.busy && (inSrc s.latched.regs a || inDst s.latched.regs a)

/-- Host read of one byte (20_memory.md R69). -/
def hostReadByte (s : State) (a : Nat) : Host.Outcome State Fault Refusal :=
  if s.params.memSize ≤ a then .fault (.noSuchByte a)
  else if s.beingWritten a then .next s.drawByte
  else .next (s.respond (.byte (s.mem.read a)))

/-- Host write of one byte (20_memory.md R69, 70_reset_and_hazards.md R243). -/
def hostWriteByte (s : State) (a : Nat) (b : Byte) : Host.Outcome State Fault Refusal :=
  if s.params.memSize ≤ a then .fault (.noSuchByte a)
  else if s.hazardAt a then .fault (.hazard a)
  else .next { s with mem := s.mem.write a b }

/-- One host step (00_scope.md R15). -/
def hostStep (s : State) : HostAction → Host.Outcome State Fault Refusal
  | .readReg size addr => hostRegisterAccess s size addr fun off => hostReadReg s off
  | .writeReg size addr v => hostRegisterAccess s size addr fun off => hostWriteReg s off v
  | .readMem addr => hostReadByte s addr
  | .writeMem addr b => hostWriteByte s addr b

/-! ### Reset -/

/-- The destination bytes that a reset leaves unspecified (70_reset_and_hazards.md R241): those that
exist and that the engine may have written (log 8). -/
def State.scrambledAddrs (s : State) : List Nat :=
  ((List.range (min s.cap (s.params.memSize - s.dst))).map fun i => s.dst + i).filter s.beingWritten

/-- Every byte of `as` takes a free value, numbered from `n` up in list order (U4). -/
def Memory.scramble : Memory → Nat → List Nat → Memory
  | m, _, [] => m
  | m, n, a :: as => (m.write a (Config.freeByte n)).scramble (n + 1) as

/-- Block state at its reset values (70_reset_and_hazards.md R240); buffer memory, the parameters and
the model's own fields stay. -/
def State.blockReset (s : State) : State :=
  { State.resetFor s.params with
    mem := s.mem, agenda := s.agenda, response := s.response, draws := s.draws }

/-- A reset pulse (70_reset_and_hazards.md R240, R241). While BUSY the command is abandoned and its
destination bytes become unspecified. -/
def resetPulse (s : State) : State :=
  { s.blockReset with
    mem := s.mem.scramble s.draws s.scrambledAddrs
    draws := s.draws + s.scrambledAddrs.length }

end Sys2Proof.Machine
end

