-- ==== Sys2Proof/Machine/Step.lean ====
section
/-! DEFINITION. One step of the machine: the first event of the agenda, or the engine's turn. -/

namespace Sys2Proof.Machine

/-- One step (00_scope.md R15; log 4). -/
def step (s : State) : Host.Outcome State Fault Refusal :=
  match s.agenda with
  | [] => engineTurn s
  | .engine :: _ => engineTurn s.popEvent
  | .reset :: _ => .next (resetPulse s.popEvent)
  | .host a :: _ => hostStep s.popEvent a

/-- `s` with the word whose bits are `w` accepted and the engine to move next, so that the next step
completes it: a host write of `w` to CMD (44_control.md R200) without the wait (log 5). -/
def State.withFetchWord (s : State) (nbits w : Nat) : State :=
  s.inFlightNext (BitVec.ofNat 32 (w % 2 ^ nbits))

end Sys2Proof.Machine
end

