-- ==== Sys2Proof/WellFormed.lean ====
section
/-! DEFINITION. Well-formedness of what the outside hands to the model: command words
(30_encoding.md R80, R85), commands, and parameters (00_scope.md R7). -/

namespace Sys2Proof

/-- The MBZ field of a command word, bits 31:8, is zero (30_encoding.md R80). -/
def WordWf.mbz (w : Word) : Bool := w.extractLsb' 8 24 == 0#24

/-- The OP field of a command word, bits 7:0, is no reserved opcode (30_encoding.md R82). -/
def WordWf.op (w : Word) : Bool := decide ((w.extractLsb' 0 8).toNat ≤ 0x0B)

/-- A command word that is not illegal (30_encoding.md R81, R85). -/
def WordWf.legal (w : Word) : Bool := WordWf.mbz w && WordWf.op w

/-- A command is well formed as it stands: it has no operand field that could be out of range
(30_encoding.md R80). -/
def Instr.wf (_ : Instr) : Bool := true

/-- `P_MEM_SIZE` is in its range (00_scope.md R7). -/
def Params.memSizeWf (p : Params) : Bool := decide (1 ≤ p.memSize ∧ p.memSize ≤ 2 ^ 32)

/-- `P_MAX_SYMBOLS` is in its range (00_scope.md R7). -/
def Params.maxSymbolsWf (p : Params) : Bool := decide (1 ≤ p.maxSymbols ∧ p.maxSymbols ≤ 2 ^ 31)

/-- `P_MAX_CODE_LEN` is in its range (00_scope.md R7). -/
def Params.maxCodeLenWf (p : Params) : Bool := decide (1 ≤ p.maxCodeLen ∧ p.maxCodeLen ≤ 64)

/-- The parameters of a real instance (00_scope.md R7); `P_BASE` is any address. -/
def Params.wf (p : Params) : Bool := p.memSizeWf && p.maxSymbolsWf && p.maxCodeLenWf

end Sys2Proof
end

