-- ==== Sys2Proof/Safety.lean ====
section
/-! DEFINITION. What claims mean by a sound state and by a safe run. -/

namespace Sys2Proof.Machine

/-- The invariant of HRLE: what the spec says holds of every state a run reaches. -/
structure State.Inv (s : State) : Prop where
  /-- the parameters are in their ranges (00_scope.md R7) -/
  params_wf : s.params.wf = true
  /-- buffer memory is in canonical form (log 1) -/
  mem_wf : s.mem.wf = true
  /-- every listed byte exists (20_memory.md R60) -/
  mem_inside : ∀ c ∈ s.mem.cells, c.1 < s.params.memSize
  /-- the symbols of FT are strictly ascending (10_state.md R40) -/
  ft_ascending : ascending s.tables.ft = true
  /-- FT holds at most P_MAX_SYMBOLS entries (10_state.md R40) -/
  ft_capacity : s.tables.ft.length ≤ s.params.maxSymbols
  /-- the frequencies sum to at most 2^64-1 (10_state.md R41) -/
  ft_sum : freqSum s.tables.ft ≤ 2 ^ 64 - 1
  /-- a valid TREE is the tree of a non-empty FT (10_state.md R43, R46) -/
  tree_built : s.tables.treeValid = true →
    s.tables.ft ≠ [] ∧ s.tables.tree = buildTree s.tables.ft
  /-- a valid CT is the code table of a valid TREE, within P_MAX_CODE_LEN (10_state.md R44, R46) -/
  codes_built : s.tables.ctValid = true →
    s.tables.treeValid = true ∧ s.tables.ct = buildCodes s.tables.tree ∧
      maxLen s.tables.ct ≤ s.params.maxCodeLen
  /-- while BUSY: CMD holds the word in flight, the latched copies equal the registers
  (10_state.md R39), and DONE, SAT and ERR are as acceptance left them (44_control.md R200) -/
  in_flight : ∀ f, s.seq = .busy f →
    f.word = s.cmd ∧ f.latched.regs = s.regs ∧
      s.status.done = false ∧ s.status.sat = false ∧ s.status.err = .none

/-- One step answers the next state `t`. -/
def Steps (s t : State) : Prop := step s = .next t

/-- The states that a run from `s` reaches. -/
inductive Reaches (s : State) : State → Prop where
  | refl : Reaches s s
  | tail {t u : State} : Reaches s t → Steps t u → Reaches s u

/-- A run from `s` that never marks itself faulted (70_reset_and_hazards.md R243). -/
def HazardFree (s : State) : Prop := ∀ t, Reaches s t → ∀ a, step t ≠ .fault (.hazard a)

end Sys2Proof.Machine
end

