-- ==== Sys2Proof/Certificates/Slice0/Obligations.lean ====
section
/-! DEFINITION. The statements for the provers, and the words of the spec that they are written
in. -/

namespace Sys2Proof.Spec

open Sys2Proof Sys2Proof.Machine

/-! ### The spec's words -/

/-- The state after `raise e` (60_exceptions.md R213). -/
def raised (s : State) (e : ErrCode) : State :=
  { s with outLen := 0, status := { s.status with done := true, err := e }, seq := .idle }

/-- The state after `complete(out)`, the pseudocode's changes already made in `t`
(60_exceptions.md R211). -/
def completed (t : State) (out : Nat) : State :=
  { t with
    outLen := BitVec.ofNat 32 out
    status := { t.status with done := true, err := .none }
    seq := .idle }

/-- The first `raise` reached, where the checks stand in the order of the pseudocode
(60_exceptions.md R212). -/
def firstRaise : List (Bool × ErrCode) → Option ErrCode
  | [] => none
  | c :: cs => if c.1 then some c.2 else firstRaise cs

/-- The operands a command reads: the latched copies of the command in flight (10_state.md R39);
with none in flight, the registers as they stand (log 6). -/
def operands (s : State) : Latched :=
  match s.seq with
  | .idle => { regs := s.regs, qfloor := s.ctrl.qfloor }
  | .busy f => f.latched

/-- SRC_ADDR, latched (10_state.md R39). -/
def src (s : State) : Nat := (operands s).regs.srcAddr.toNat

/-- SRC_LEN, latched. -/
def len (s : State) : Nat := (operands s).regs.srcLen.toNat

/-- DST_ADDR, latched. -/
def dst (s : State) : Nat := (operands s).regs.dstAddr.toNat

/-- DST_CAP, latched. -/
def cap (s : State) : Nat := (operands s).regs.dstCap.toNat

/-- `check_src()` raises (20_memory.md R64). -/
abbrev SrcBad (s : State) : Prop := s.params.memSize < src s + len s

/-- `check_dst()` raises (20_memory.md R64). -/
abbrev DstBad (s : State) : Prop :=
  s.params.memSize < dst s + cap s ∨
    (0 < len s ∧ 0 < cap s ∧ src s < dst s + cap s ∧ dst s < src s + len s)

/-- `a` lies in the source range (20_memory.md R63). -/
abbrev InSrc (s : State) (a : Nat) : Prop := src s ≤ a ∧ a < src s + len s

/-- `a` lies in the destination range (20_memory.md R63). -/
abbrev InDst (s : State) (a : Nat) : Prop := dst s ≤ a ∧ a < dst s + cap s

/-- The source as text symbols (30_encoding.md R87). -/
def symbols (s : State) : List Word :=
  (List.range (len s / 4)).map fun k => BitVec.ofNat 32 (s.mem.readBE (src s + 4 * k) 4)

/-- The source as pixels (30_encoding.md R88). -/
def pixels (s : State) : List Pixel :=
  (List.range (len s / 3)).map fun k =>
    ⟨s.mem.read (src s + 3 * k), s.mem.read (src s + 3 * k + 1), s.mem.read (src s + 3 * k + 2)⟩

/-- The source as audio samples (30_encoding.md R89). -/
def samples (s : State) : List Int :=
  (List.range (len s / 2)).map fun k => s.mem.readSigned (src s + 2 * k) 2

/-- `MemRead(SRC_ADDR + o, n)`. -/
def field (s : State) (o n : Nat) : Nat := s.mem.readBE (src s + o) n

/-- The entries of a table header of `n` entries in the source range (30_encoding.md R90). -/
def headerTable (s : State) (n : Nat) : List FreqEntry :=
  (List.range n).map fun i =>
    ⟨BitVec.ofNat 32 (field s (4 + 12 * i) 4), BitVec.ofNat 64 (field s (8 + 12 * i) 8)⟩

/-- The run records of an image artifact in the source range (30_encoding.md R91). -/
def imageRuns (s : State) : List (Pixel × Nat) :=
  (List.range (field s 8 4)).map fun j =>
    (⟨s.mem.read (src s + 12 + 4 * j), s.mem.read (src s + 13 + 4 * j),
      s.mem.read (src s + 14 + 4 * j)⟩, (s.mem.read (src s + 15 + 4 * j)).toNat)

/-- The run records of an audio artifact in the source range (30_encoding.md R92). -/
def audioRuns (s : State) : List (Int × Nat) :=
  (List.range (field s 16 4)).map fun j =>
    (s.mem.readSigned (src s + 20 + 8 * j) 4, field s (24 + 8 * j) 4)

/-- The quantized source samples (43_audio_rle.md R181). -/
def buckets (s : State) : List Int :=
  (samples s).map fun x => quantize x (operands s).regs.qstep.toNat (operands s).qfloor

/-- The text artifact's layout (30_encoding.md R90). -/
def textLayout (F : List FreqEntry) (p : Packed) : List Byte :=
  toBE 4 F.length ++ (F.map fun e => toBE 4 e.sym.toNat ++ toBE 8 e.freq.toNat).flatten ++
    toBE 1 p.pad ++ toBE 4 p.bytes.length ++ p.bytes

/-- The image artifact's layout (30_encoding.md R91). -/
def imageLayout (W H : Nat) (runs : List (Pixel × Nat)) : List Byte :=
  toBE 4 W ++ toBE 4 H ++ toBE 4 runs.length ++
    (runs.map fun r => [r.1.r, r.1.g, r.1.b, BitVec.ofNat 8 r.2]).flatten

/-- The audio artifact's layout (30_encoding.md R92). -/
def audioLayout (r : OperandRegs) (runs : List (Int × Nat)) : List Byte :=
  toBE 2 r.audChannels.toNat ++ toBE 2 r.audSwidth.toNat ++ toBE 4 r.audRate.toNat ++
    toBE 4 r.audFrames.toNat ++ toBE 4 r.qstep.toNat ++ toBE 4 runs.length ++
    (runs.map fun x => toBE 4 (x.1 % 2 ^ 32).toNat ++ toBE 4 x.2).flatten

/-- The 16-bit saturation of 43_audio_rle.md R183. -/
def saturate (x : Int) : Int := if x < -32768 then -32768 else if 32767 < x then 32767 else x

/-! ### The checks of each command, in the order of its pseudocode -/

/-- FREQ_COUNT (40_huffman_model.md R110). -/
def freqCountChecks (s : State) : Option ErrCode :=
  firstRaise
    [(decide (SrcBad s), .addressError), (decide (len s = 0), .emptyInput),
     (decide (len s % 4 ≠ 0), .invalidParameter),
     (decide (s.params.maxSymbols < (countFreq (symbols s)).length), .capacity)]

/-- FREQ_LOAD (40_huffman_model.md R112). -/
def freqLoadChecks (s : State) : Option ErrCode :=
  let n := field s 0 4
  firstRaise
    [(decide (SrcBad s), .addressError), (decide (len s < 4), .corruptStream),
     (decide (n = 0), .corruptStream), (decide (len s < 4 + 12 * n), .corruptStream),
     (decide (∃ i, i < n - 1 ∧ field s (4 + 12 * (i + 1)) 4 ≤ field s (4 + 12 * i) 4),
       .corruptStream),
     (decide (2 ^ 64 - 1 < ((List.range n).map fun i => field s (8 + 12 * i) 8).sum),
       .corruptStream),
     (decide (s.params.maxSymbols < n), .capacity)]

/-- HUFF_PACK (41_text_codec.md R141). -/
def huffPackChecks (s : State) : Option ErrCode :=
  firstRaise
    [(decide (SrcBad s), .addressError), (decide (DstBad s), .addressError),
     (decide (s.tables.ctValid = false), .sequence), (decide (len s = 0), .emptyInput),
     (decide (len s % 4 ≠ 0), .invalidParameter),
     ((symbols s).any fun x => decide (∀ e ∈ s.tables.ft, e.sym ≠ x), .noCode),
     (decide (cap s < (pack (symbols s) s.tables.ft s.tables.ct).bytes.length), .capacity)]

/-- TEXT_ENCODE (41_text_codec.md R142). -/
def textEncodeChecks (s : State) : Option ErrCode :=
  let F := countFreq (symbols s)
  let C := buildCodes (buildTree F)
  firstRaise
    [(decide (SrcBad s), .addressError), (decide (DstBad s), .addressError),
     (decide (len s = 0), .emptyInput), (decide (len s % 4 ≠ 0), .invalidParameter),
     (decide (s.params.maxSymbols < F.length), .capacity),
     (decide (∃ c ∈ C, s.params.maxCodeLen < c.length), .capacity),
     (decide (cap s < 9 + 12 * F.length + (pack (symbols s) F C).bytes.length), .capacity)]

/-- IMG_ENCODE (42_image_rle.md R161). -/
def imgEncodeChecks (s : State) : Option ErrCode :=
  firstRaise
    [(decide (SrcBad s), .addressError), (decide (DstBad s), .addressError),
     (decide (len s = 0), .emptyInput), (decide (len s % 3 ≠ 0), .invalidParameter),
     (decide ((operands s).regs.imgWidth.toNat * (operands s).regs.imgHeight.toNat ≠ len s / 3),
       .invalidParameter),
     (decide (cap s < 12 + 4 * (rleImg (pixels s)).length), .capacity)]

/-- IMG_DECODE with its parser (42_image_rle.md R162, R163). -/
def imgDecodeChecks (s : State) : Option ErrCode :=
  let N := field s 0 4 * field s 4 4
  firstRaise
    [(decide (SrcBad s), .addressError), (decide (DstBad s), .addressError),
     (decide (len s < 12), .corruptStream), (decide (len s < 12 + 4 * field s 8 4), .corruptStream),
     (decide (12 + 4 * field s 8 4 < len s), .corruptStream),
     (decide (∃ r ∈ imageRuns s, r.2 = 0), .corruptStream),
     (decide (((imageRuns s).map fun r => r.2).sum ≠ N), .corruptStream),
     (decide (cap s < 3 * N), .capacity)]

/-- AUD_ENCODE (43_audio_rle.md R181). -/
def audEncodeChecks (s : State) : Option ErrCode :=
  let r := (operands s).regs
  firstRaise
    [(decide (SrcBad s), .addressError), (decide (DstBad s), .addressError),
     (decide (len s = 0), .emptyInput), (decide (len s % 2 ≠ 0), .invalidParameter),
     (decide (r.qstep.toNat = 0 ∨ 0x7FFFFFFF < r.qstep.toNat), .invalidParameter),
     (decide (r.audChannels.toNat = 0), .invalidParameter),
     (decide (r.audFrames.toNat * r.audChannels.toNat ≠ len s / 2), .invalidParameter),
     (decide (cap s < 20 + 8 * (rleAud (buckets s)).length), .capacity)]

/-- AUD_DECODE with its parser (43_audio_rle.md R184, R185). -/
def audDecodeChecks (s : State) : Option ErrCode :=
  let M := field s 8 4 * field s 0 2
  firstRaise
    [(decide (SrcBad s), .addressError), (decide (DstBad s), .addressError),
     (decide (len s < 20), .corruptStream), (decide (len s < 20 + 8 * field s 16 4), .corruptStream),
     (decide (20 + 8 * field s 16 4 < len s), .corruptStream),
     (decide (∃ r ∈ audioRuns s, r.2 = 0), .corruptStream),
     (decide (((audioRuns s).map fun r => r.2).sum ≠ M), .corruptStream),
     (decide (cap s < 2 * M), .capacity)]

/-- The tables that FREQ_COUNT and FREQ_LOAD leave: FT replaced, both flags 0 (10_state.md R46). -/
def countedTables (s : State) (ft : List FreqEntry) : Tables :=
  { s.tables with ft := ft, treeValid := false, ctValid := false }

/-- `bytes` written at DST_ADDR, DST_ADDR + 1, … -/
def stored (s : State) (bytes : List Byte) : Memory := s.mem.writeBytes (dst s) bytes

/-- The engine moves next and `es` is what is left of the agenda then. -/
def EngineNext (s : State) (es : List Event) : Prop :=
  (s.agenda = [] ∧ es = []) ∨ s.agenda = .engine :: es

/-- The host's next action is a 32-bit write of `v` at register offset `off`. -/
def Writes (s : State) (off : Nat) (v : Word) (es : List Event) : Prop :=
  s.agenda = .host (.writeReg .word (s.params.base + off) v) :: es

/-- The host's next action is a 32-bit read at register offset `off`. -/
def Reads (s : State) (off : Nat) (es : List Event) : Prop :=
  s.agenda = .host (.readReg .word (s.params.base + off)) :: es

/-- `node[x].freq` as a number; 0 where the arena has no node `x`. -/
def freqAt (t : Tree) (x : Nat) : Nat :=
  match t.nodes[x]? with
  | some (.leaf _ f) => f.toNat
  | some (.internal f _ _) => f.toNat
  | none => 0

/-- `x` is a child of node `k`. -/
def IsChild (t : Tree) (x k : Nat) : Prop :=
  ∃ f l r, t.nodes[k]? = some (.internal f l r) ∧ (x = l ∨ x = r)

/-- `x` is in the priority queue when node `k` is made: it exists and no earlier internal node has
taken it (40_huffman_model.md R115). -/
def Queued (t : Tree) (x k : Nat) : Prop := x < k ∧ ∀ j, j < k → ¬ IsChild t x j

/-- `(node[x].freq, x)` comes before `(node[y].freq, y)` (40_huffman_model.md R115). -/
def Before (t : Tree) (x y : Nat) : Prop :=
  freqAt t x < freqAt t y ∨ (freqAt t x = freqAt t y ∧ x < y)

/-- The node that a bit string leads to from node `x`: 0 to the left, 1 to the right
(40_huffman_model.md R117). -/
def follow (t : Tree) : Nat → Code → Option Nat
  | x, [] => some x
  | x, b :: bs =>
    match t.nodes[x]? with
    | some (.internal _ l r) => follow t (if b then r else l) bs
    | _ => none

/-- The code that CT gives symbol `x` of FT (41_text_codec.md R140). -/
def IsCodeOf (T : Tables) (x : Word) (c : Code) : Prop :=
  ∃ (i : Nat) (e : FreqEntry), T.ft[i]? = some e ∧ e.sym = x ∧ T.ct[i]? = some c

/-- Every register with its offset (10_state.md R20). -/
def registerMap : List (Nat × Reg) :=
  [(0x00, .id), (0x04, .version), (0x08, .cmd), (0x0C, .status), (0x10, .ctrl), (0x14, .srcAddr),
   (0x18, .srcLen), (0x1C, .dstAddr), (0x20, .dstCap), (0x24, .outLen), (0x28, .qstep),
   (0x2C, .imgWidth), (0x30, .imgHeight), (0x34, .audChannels), (0x38, .audSwidth),
   (0x3C, .audRate), (0x40, .audFrames), (0x44, .nsym), (0x48, .pad), (0x4C, .runs),
   (0x50, .count), (0x54, .bitlenLo), (0x58, .bitlenHi), (0x5C, .tblState), (0x60, .treeRoot),
   (0x64, .tblIndex), (0x68, .tblSym), (0x6C, .tblFreqLo), (0x70, .tblFreqHi), (0x74, .tblClen),
   (0x78, .tblCodeLo), (0x7C, .tblCodeHi), (0x80, .nodeIndex), (0x84, .nodeKind),
   (0x88, .nodeFreqLo), (0x8C, .nodeFreqHi), (0x90, .nodeLeft), (0x94, .nodeRight),
   (0x98, .nodeSym)]

/-- The values of the registers that are plain storage (10_state.md R22, R25 to R30, R32, R33,
R34). -/
def storedValues (s : State) : List (Reg × Word) :=
  [(.cmd, s.cmd), (.srcAddr, s.regs.srcAddr), (.srcLen, s.regs.srcLen), (.dstAddr, s.regs.dstAddr),
   (.dstCap, s.regs.dstCap), (.outLen, s.outLen), (.qstep, s.regs.qstep),
   (.imgWidth, s.regs.imgWidth), (.imgHeight, s.regs.imgHeight),
   (.audChannels, s.regs.audChannels.setWidth 32), (.audSwidth, s.regs.audSwidth.setWidth 32),
   (.audRate, s.regs.audRate), (.audFrames, s.regs.audFrames), (.pad, s.result.pad.setWidth 32),
   (.runs, s.result.runs), (.count, s.result.count),
   (.bitlenLo, s.result.bitlen.extractLsb' 0 32), (.bitlenHi, s.result.bitlen.extractLsb' 32 32),
   (.tblIndex, s.tblIndex), (.nodeIndex, s.nodeIndex)]

/-- The reset column of 10_state.md R20. -/
def resetColumn : List (Reg × Word) :=
  [(.id, 0x48524C45), (.version, 1), (.cmd, 0), (.status, 0), (.ctrl, 0), (.srcAddr, 0),
   (.srcLen, 0), (.dstAddr, 0), (.dstCap, 0), (.outLen, 0), (.qstep, 0x1F4), (.imgWidth, 0),
   (.imgHeight, 0), (.audChannels, 1), (.audSwidth, 2), (.audRate, 0), (.audFrames, 0), (.nsym, 0),
   (.pad, 0), (.runs, 0), (.count, 0), (.bitlenLo, 0), (.bitlenHi, 0), (.tblState, 0),
   (.treeRoot, 0xFFFFFFFF), (.tblIndex, 0), (.tblSym, 0), (.tblFreqLo, 0), (.tblFreqHi, 0),
   (.tblClen, 0), (.tblCodeLo, 0), (.tblCodeHi, 0), (.nodeIndex, 0), (.nodeKind, 0),
   (.nodeFreqLo, 0), (.nodeFreqHi, 0), (.nodeLeft, 0), (.nodeRight, 0), (.nodeSym, 0)]

/-- The codes a command may report (60_exceptions.md R210, column "raised by"). -/
def mayReport : Instr → List ErrCode
  | .nop => [.none]
  | .freqCount => [.none, .emptyInput, .invalidParameter, .capacity, .addressError]
  | .freqLoad => [.none, .corruptStream, .capacity, .addressError]
  | .treeBuild => [.none, .emptyInput]
  | .codeGen => [.none, .capacity, .sequence]
  | .huffPack =>
    [.none, .emptyInput, .invalidParameter, .capacity, .sequence, .addressError, .noCode]
  | .textEncode => [.none, .emptyInput, .invalidParameter, .capacity, .addressError]
  | .imgEncode => [.none, .emptyInput, .invalidParameter, .capacity, .addressError]
  | .imgDecode => [.none, .corruptStream, .capacity, .addressError]
  | .audEncode => [.none, .emptyInput, .invalidParameter, .capacity, .addressError]
  | .audDecode => [.none, .corruptStream, .capacity, .addressError]
  | .clearTables => [.none]

/-- The commands that read buffer memory (20_memory.md R60). -/
def readsMemory : List Instr :=
  [.freqCount, .freqLoad, .huffPack, .textEncode, .imgEncode, .imgDecode, .audEncode, .audDecode]

/-- The commands that write buffer memory (30_encoding.md R83). -/
def writesMemory : List Instr :=
  [.huffPack, .textEncode, .imgEncode, .imgDecode, .audEncode, .audDecode]

end Sys2Proof.Spec

open Sys2Proof Sys2Proof.Machine Sys2Proof.Spec

/-! ### Decoding (30_encoding.md) -/

/-- 30_encoding.md R82: the opcode map, row by row, and the reserved rows. -/
def Obligations.DecodeIsTheOpcodeMap : Prop :=
  decode 0x00000000#32 = .ok .nop ∧ decode 0x00000001#32 = .ok .freqCount ∧
  decode 0x00000002#32 = .ok .freqLoad ∧ decode 0x00000003#32 = .ok .treeBuild ∧
  decode 0x00000004#32 = .ok .codeGen ∧ decode 0x00000005#32 = .ok .huffPack ∧
  decode 0x00000006#32 = .ok .textEncode ∧ decode 0x00000007#32 = .ok .imgEncode ∧
  decode 0x00000008#32 = .ok .imgDecode ∧ decode 0x00000009#32 = .ok .audEncode ∧
  decode 0x0000000A#32 = .ok .audDecode ∧ decode 0x0000000B#32 = .ok .clearTables ∧
  ∀ op : BitVec 8, 0x0C ≤ op.toNat → decode (0#24 ++ op) = .error .reservedOpcode

/-- 30_encoding.md R81: decoding is total; the words of the table are exactly the encodings, each
with one meaning, and every other word is ILLEGAL (a rejection of the decoder). -/
def Obligations.DecodeAcceptsExactlyTheEncodings : Prop :=
  (∀ i : Instr, decode (encode i) = .ok i) ∧
  (∀ (w : Word) (i : Instr), decode w = .ok i → w = encode i) ∧
  (∀ w : Word, w.extractLsb' 8 24 ≠ 0#24 → decode w = .error .mbzNotZero) ∧
  (∀ w : Word, w.extractLsb' 8 24 = 0#24 → (w.extractLsb' 0 8).toNat ≤ 0x0B →
    ∃ i, decode w = .ok i ∧ opcode i = w.extractLsb' 0 8) ∧
  (∀ w : Word, w.extractLsb' 8 24 = 0#24 → 0x0B < (w.extractLsb' 0 8).toNat →
    decode w = .error .reservedOpcode)

/-! ### Issue and completion (44_control.md) -/

/-- 44_control.md R201, R202: when the engine moves next and the word in flight decodes to `i`, the
step is the meaning of `i`, after the engine's event has left the agenda (log 4). -/
def Obligations.StepRunsTheDecodedCommand : Prop :=
  ∀ (s : State) (f : InFlight) (i : Instr) (es : List Event),
    s.seq = .busy f → decode f.word = .ok i → EngineNext s es →
      step s = exec i { s with agenda := es }

/-- 44_control.md R204: a word with bits 31:8 not zero, or with OP in 0x0C to 0xFF, is accepted like
any other (CMD reads it back, BUSY is 1) and completes with ILLEGAL_COMMAND and no other effect. -/
def Obligations.IllegalWordReportsIllegalCommand : Prop :=
  (∀ (s : State) (w : Word) (es : List Event),
    (w.extractLsb' 8 24 ≠ 0#24 ∨ 0x0C ≤ (w.extractLsb' 0 8).toNat) →
    s.busy = false → Writes s 0x08 w es →
      ∃ t, step s = .next t ∧ t.cmd = w ∧ t.busy = true) ∧
  (∀ (s : State) (f : InFlight) (es : List Event),
    (f.word.extractLsb' 8 24 ≠ 0#24 ∨ 0x0C ≤ (f.word.extractLsb' 0 8).toNat) →
    s.seq = .busy f → EngineNext s es →
      step s = .next (raised { s with agenda := es } .illegalCommand))

/-- 44_control.md R200: what a host CMD write while BUSY = 0 does at once. -/
def Obligations.AcceptanceFollowsItsRule : Prop :=
  ∀ (s : State) (w : Word) (es : List Event),
    s.seq = .idle → Writes s 0x08 w es →
      ∃ t, step s = .next t ∧ t.irq = false ∧
        t = { s with
          agenda := es
          cmd := w
          status := { done := false, lost := s.status.lost, sat := false, err := .none }
          seq := .busy { word := w, latched := { regs := s.regs, qfloor := s.ctrl.qfloor } } }

/-- 44_control.md R206: once accepted, a command stays in flight until its completion step or a
reset, and a CMD write meanwhile is ignored and sets LOST. -/
def Obligations.NoCommandIsAborted : Prop :=
  (∀ (s t : State) (f : InFlight), s.seq = .busy f → step s = .next t →
    t.seq = .busy f ∨ (∃ es, EngineNext s es) ∨ (∃ es, s.agenda = .reset :: es)) ∧
  (∀ (s : State) (f : InFlight) (v : Word) (es : List Event),
    s.seq = .busy f → Writes s 0x08 v es →
      step s = .next { s with agenda := es, status := { s.status with lost := true } })

/-- 44_control.md R201: the engine's step, when it is taken, completes the command, whatever the
word and the operands. -/
def Obligations.EngineTurnCompletesTheCommand : Prop :=
  ∀ (s : State) (f : InFlight) (es : List Event), s.seq = .busy f → EngineNext s es →
    ∃ t, step s = .next t ∧ t.seq = .idle ∧ t.status.done = true ∧
      t.status.lost = s.status.lost ∧ t.agenda = es ∧ (t.status.err ≠ .none → t.outLen = 0)

/-- 70_reset_and_hazards.md R248: BUSY does not last forever. In this model the wait is the agenda
(log 4, log 15): after at most one step more than the agenda has events, the command has completed,
unless an access of the host has stopped the run. -/
def Obligations.BusyEndsOnceTheAgendaIsServed : Prop :=
  ∀ s : State, s.busy = true →
    ∃ k, k ≤ s.agenda.length + 1 ∧
      ((∃ t, Host.Core.run Sys2Proof.core k s = .next t ∧ t.busy = false) ∨
        (∃ r, Host.Core.run Sys2Proof.core k s = .fault r) ∨
        (∃ r, Host.Core.run Sys2Proof.core k s = .refused r))

/-! ### The register window (10_state.md) -/

/-- 10_state.md R37: an access to the register window that is not an aligned 32-bit access is
refused. -/
def Obligations.OtherRegisterAccessIsRefused : Prop :=
  ∀ (s : State) (size : AccessSize) (off : Nat) (v : Word) (es : List Event),
    off < 256 → (size ≠ .word ∨ off % 4 ≠ 0) →
      (s.agenda = .host (.readReg size (s.params.base + off)) :: es →
        step s = .refused (.registerAccess size (s.params.base + off))) ∧
      (s.agenda = .host (.writeReg size (s.params.base + off) v) :: es →
        step s = .refused (.registerAccess size (s.params.base + off)))

/-- 10_state.md R35 over the map of R20: while IDLE a read answers the register's value, or 0 at a
reserved offset; while BUSY only ID, VERSION, CMD, STATUS and CTRL do, and any other register
answers a free value. Nothing else changes. -/
def Obligations.HostReadFollowsItsRule : Prop :=
  ∀ (s : State) (es : List Event),
    (∀ p ∈ registerMap, Reads s p.1 es → (s.busy = false ∨ p.1 < 0x14) →
      step s = .next { s with agenda := es, response := .word (s.readReg p.2) }) ∧
    (∀ p ∈ registerMap, Reads s p.1 es → s.busy = true → 0x14 ≤ p.1 →
      step s = .next { s with
        agenda := es, response := .word (Config.freeWord s.draws), draws := s.draws + 1 }) ∧
    (∀ off, 0x9C ≤ off → off < 0x100 → off % 4 = 0 → Reads s off es → s.busy = false →
      step s = .next { s with agenda := es, response := .word 0 }) ∧
    (∀ p ∈ storedValues s, s.readReg p.1 = p.2)

/-- 10_state.md R36: a host register write, clause by clause. -/
def Obligations.HostWriteFollowsItsRule : Prop :=
  ∀ (s : State) (v : Word) (es : List Event),
    let u : State := { s with agenda := es }
    (Writes s 0x08 v es → s.busy = false → step s = .next (u.accept v)) ∧
    (Writes s 0x08 v es → s.busy = true →
      step s = .next { u with status := { s.status with lost := true } }) ∧
    (Writes s 0x0C v es →
      step s = .next { u with status := { s.status with
        done := if v.getLsbD 1 then false else s.status.done
        lost := if v.getLsbD 2 then false else s.status.lost } }) ∧
    (Writes s 0x10 v es →
      step s = .next { u with ctrl := { irqEn := v.getLsbD 0, qfloor := v.getLsbD 1 } }) ∧
    (∀ off, off < 256 → off % 4 = 0 → off ∉ [0x08, 0x0C, 0x10] → Writes s off v es →
      s.busy = true → step s = .next u) ∧
    (s.busy = false →
      (Writes s 0x14 v es → step s = .next { u with regs := { s.regs with srcAddr := v } }) ∧
      (Writes s 0x18 v es → step s = .next { u with regs := { s.regs with srcLen := v } }) ∧
      (Writes s 0x1C v es → step s = .next { u with regs := { s.regs with dstAddr := v } }) ∧
      (Writes s 0x20 v es → step s = .next { u with regs := { s.regs with dstCap := v } }) ∧
      (Writes s 0x28 v es → step s = .next { u with regs := { s.regs with qstep := v } }) ∧
      (Writes s 0x2C v es → step s = .next { u with regs := { s.regs with imgWidth := v } }) ∧
      (Writes s 0x30 v es → step s = .next { u with regs := { s.regs with imgHeight := v } }) ∧
      (Writes s 0x34 v es →
        step s = .next { u with regs := { s.regs with audChannels := v.extractLsb' 0 16 } }) ∧
      (Writes s 0x38 v es →
        step s = .next { u with regs := { s.regs with audSwidth := v.extractLsb' 0 16 } }) ∧
      (Writes s 0x3C v es → step s = .next { u with regs := { s.regs with audRate := v } }) ∧
      (Writes s 0x40 v es → step s = .next { u with regs := { s.regs with audFrames := v } }) ∧
      (Writes s 0x64 v es → step s = .next { u with tblIndex := v }) ∧
      (Writes s 0x80 v es → step s = .next { u with nodeIndex := v }) ∧
      (∀ off, off < 256 → off % 4 = 0 →
        off ∉ [0x08, 0x0C, 0x10, 0x14, 0x18, 0x1C, 0x20, 0x28, 0x2C, 0x30, 0x34, 0x38, 0x3C, 0x40,
          0x64, 0x80] → Writes s off v es → step s = .next u))

/-- 10_state.md R21: ID and VERSION are hardwired: a read answers the constant, IDLE or BUSY, and a
write is ignored. -/
def Obligations.IdentificationIsHardwired : Prop :=
  ∀ (s : State) (v : Word) (es : List Event),
    (Reads s 0x00 es →
      step s = .next { s with agenda := es, response := .word 0x48524C45#32 }) ∧
    (Reads s 0x04 es →
      step s = .next { s with agenda := es, response := .word 0x00000001#32 }) ∧
    (Writes s 0x00 v es ∨ Writes s 0x04 v es → step s = .next { s with agenda := es })

/-- 10_state.md R23 (the layout of the word): BUSY, DONE, LOST and SAT at bits 0 to 3, the code of
ERR at bits 11:8, every other bit 0. BUSY is
the sequencer's state (R38). -/
def Obligations.StatusWordLayout : Prop :=
  ∀ s : State,
    (s.busy = true ↔ ∃ f, s.seq = .busy f) ∧
    (s.readReg .status).getLsbD 0 = s.busy ∧ (s.readReg .status).getLsbD 1 = s.status.done ∧
    (s.readReg .status).getLsbD 2 = s.status.lost ∧ (s.readReg .status).getLsbD 3 = s.status.sat ∧
    (s.readReg .status).extractLsb' 4 4 = 0#4 ∧
    (s.readReg .status).extractLsb' 8 4 = s.status.err.code ∧
    (s.readReg .status).extractLsb' 12 20 = 0#20

/-- 10_state.md R24: after a host write of `v` to CTRL, IDLE or BUSY, the register reads back bits 1
and 0 of `v` and zero elsewhere, and a command in flight keeps the QFLOOR latched at its
acceptance. -/
def Obligations.CtrlWriteTakesEffectAtOnce : Prop :=
  ∀ (s : State) (v : Word) (es : List Event), Writes s 0x10 v es →
    ∃ t, step s = .next t ∧ t.ctrl.irqEn = v.getLsbD 0 ∧ t.ctrl.qfloor = v.getLsbD 1 ∧
      t.readReg .ctrl = v &&& 3#32 ∧ t.seq = s.seq

/-- 10_state.md R31: NSYM, TBL_STATE and TREE_ROOT as functions of the tables. -/
def Obligations.TableStatusRegisters : Prop :=
  ∀ s : State,
    s.readReg .nsym = BitVec.ofNat 32 s.tables.ft.length ∧
    (s.readReg .tblState).getLsbD 0 = decide (0 < s.tables.ft.length) ∧
    (s.readReg .tblState).getLsbD 1 = s.tables.treeValid ∧
    (s.readReg .tblState).getLsbD 2 = s.tables.ctValid ∧
    (s.readReg .tblState).extractLsb' 3 29 = 0#29 ∧
    (s.tables.treeValid = true → s.readReg .treeRoot = BitVec.ofNat 32 s.tables.tree.root) ∧
    (s.tables.treeValid = false → s.readReg .treeRoot = 0xFFFFFFFF#32)

/-- 10_state.md R33: the table readout window, with the numeric form of a code (00_scope.md R12). -/
def Obligations.TableReadoutWindow : Prop :=
  ∀ s : State,
    (∀ e, s.tables.ft[s.tblIndex.toNat]? = some e →
      s.readReg .tblSym = e.sym ∧ s.readReg .tblFreqLo = e.freq.extractLsb' 0 32 ∧
      s.readReg .tblFreqHi = e.freq.extractLsb' 32 32 ∧
      (∀ c, s.tables.ctValid = true → s.tables.ct[s.tblIndex.toNat]? = some c →
        s.readReg .tblClen = BitVec.ofNat 32 c.length ∧
        s.readReg .tblCodeLo = (BitVec.ofNat 64 (codeNum c)).extractLsb' 0 32 ∧
        s.readReg .tblCodeHi = (BitVec.ofNat 64 (codeNum c)).extractLsb' 32 32) ∧
      (s.tables.ctValid = false →
        s.readReg .tblClen = 0 ∧ s.readReg .tblCodeLo = 0 ∧ s.readReg .tblCodeHi = 0)) ∧
    (s.tables.ft.length ≤ s.tblIndex.toNat →
      s.readReg .tblSym = 0 ∧ s.readReg .tblFreqLo = 0 ∧ s.readReg .tblFreqHi = 0 ∧
      s.readReg .tblClen = 0 ∧ s.readReg .tblCodeLo = 0 ∧ s.readReg .tblCodeHi = 0) ∧
    codeNum [] = 0 ∧
    (∀ (c : Code) (b : Bool), codeNum (b :: c) = b.toNat * 2 ^ c.length + codeNum c)

/-- 10_state.md R34: the tree readout window. -/
def Obligations.TreeReadoutWindow : Prop :=
  ∀ s : State,
    ((s.tables.treeValid = false ∨ 2 * s.tables.ft.length - 1 ≤ s.nodeIndex.toNat) →
      s.readReg .nodeKind = 0 ∧ s.readReg .nodeFreqLo = 0 ∧ s.readReg .nodeFreqHi = 0 ∧
      s.readReg .nodeLeft = 0 ∧ s.readReg .nodeRight = 0 ∧ s.readReg .nodeSym = 0) ∧
    (s.tables.treeValid = true → s.nodeIndex.toNat < 2 * s.tables.ft.length - 1 →
      (∀ x f, s.tables.tree.nodes[s.nodeIndex.toNat]? = some (.leaf x f) →
        s.readReg .nodeKind = 1 ∧ s.readReg .nodeFreqLo = f.extractLsb' 0 32 ∧
        s.readReg .nodeFreqHi = f.extractLsb' 32 32 ∧ s.readReg .nodeLeft = 0xFFFFFFFF#32 ∧
        s.readReg .nodeRight = 0xFFFFFFFF#32 ∧ s.readReg .nodeSym = x) ∧
      (∀ f l r, s.tables.tree.nodes[s.nodeIndex.toNat]? = some (.internal f l r) →
        s.readReg .nodeKind = 2 ∧ s.readReg .nodeFreqLo = f.extractLsb' 0 32 ∧
        s.readReg .nodeFreqHi = f.extractLsb' 32 32 ∧ s.readReg .nodeLeft = BitVec.ofNat 32 l ∧
        s.readReg .nodeRight = BitVec.ofNat 32 r ∧ s.readReg .nodeSym = 0))

/-- 60_exceptions.md R220: IRQ is the level IRQ_EN and DONE. It rises at every completion when
enabled, and at once when IRQ_EN is set while DONE = 1; it falls when the host clears DONE or
IRQ_EN, at an acceptance, and at reset. -/
def Obligations.IrqIsTheLevelOfEnableAndDone : Prop :=
  (∀ s : State, s.irq = (s.ctrl.irqEn && s.status.done)) ∧
  (∀ (s t : State) (f : InFlight) (es : List Event), s.seq = .busy f → EngineNext s es →
    step s = .next t → t.irq = s.ctrl.irqEn) ∧
  (∀ (s t : State) (v : Word) (es : List Event), step s = .next t →
    (Writes s 0x0C v es → v.getLsbD 1 = true → t.irq = false) ∧
    (Writes s 0x10 v es → t.irq = (v.getLsbD 0 && s.status.done)) ∧
    (Writes s 0x08 v es → s.busy = false → t.irq = false) ∧
    (s.agenda = .reset :: es → t.irq = false))

/-! ### Buffer memory (20_memory.md) -/

/-- 20_memory.md R69 and 70_reset_and_hazards.md R243, with R60: host accesses to buffer memory. A
byte in both ranges counts as a source byte for a read (log 8), and the ranges are the latched ones
whatever the command (log 9). -/
def Obligations.HostMemoryAccess : Prop :=
  ∀ (s : State) (a : Nat) (b : Byte) (es : List Event), a < s.params.memSize →
    (s.agenda = .host (.readMem a) :: es →
      (s.busy = false ∨ InSrc s a ∨ ¬ InDst s a →
        step s = .next { s with agenda := es, response := .byte (s.mem.read a) }) ∧
      (s.busy = true → InDst s a → ¬ InSrc s a →
        step s = .next { s with
          agenda := es, response := .byte (Config.freeByte s.draws), draws := s.draws + 1 })) ∧
    (s.agenda = .host (.writeMem a b) :: es →
      (s.busy = true → (InSrc s a ∨ InDst s a) → step s = .fault (.hazard a)) ∧
      (s.busy = false ∨ (¬ InSrc s a ∧ ¬ InDst s a) →
        ∃ t, step s = .next t ∧ t = { s with agenda := es, mem := t.mem } ∧
          t.mem.read a = b ∧ ∀ a', a' ≠ a → t.mem.read a' = s.mem.read a'))

/-- 20_memory.md R64: every command that reads memory checks its source range, every command that
writes memory its destination range too, before every other check, with ADDRESS_ERROR. -/
def Obligations.RangeChecksComeFirst : Prop :=
  (∀ (i : Instr) (s : State), i ∈ readsMemory → SrcBad s →
    exec i s = .next (raised s .addressError)) ∧
  (∀ (i : Instr) (s : State), i ∈ writesMemory → DstBad s →
    exec i s = .next (raised s .addressError))

/-- 00_scope.md R10 and 20_memory.md R62, R66: the memory primitives. `MemRead` is big-endian: the
lowest address is most significant. `MemReadS` is the same value in two's complement. `MemWrite`
writes the `n` low-order bytes, most significant first, and no byte beside them. -/
def Obligations.BufferMemoryIsBigEndian : Prop :=
  (∀ (m : Memory) (a : Nat), m.readBE a 0 = 0) ∧
  (∀ (m : Memory) (a n : Nat),
    m.readBE a (n + 1) = (m.read a).toNat * 256 ^ n + m.readBE (a + 1) n) ∧
  (∀ (m : Memory) (a n : Nat), 1 ≤ n →
    (m.readBE a n < 2 ^ (8 * n - 1) → m.readSigned a n = m.readBE a n) ∧
    (2 ^ (8 * n - 1) ≤ m.readBE a n → m.readSigned a n = (m.readBE a n : Int) - 2 ^ (8 * n))) ∧
  (∀ n v : Nat, (toBE n v).length = n) ∧
  (∀ (m : Memory) (a n v i : Nat), i < n →
    (m.writeBytes a (toBE n v)).read (a + i) = BitVec.ofNat 8 (v / 256 ^ (n - 1 - i))) ∧
  (∀ (m : Memory) (a n v : Nat), (m.writeBytes a (toBE n v)).readBE a n = v % 256 ^ n) ∧
  (∀ (m : Memory) (a a' : Nat) (bs : List Byte), (a' < a ∨ a + bs.length ≤ a') →
    (m.writeBytes a bs).read a' = m.read a')

/-! ### The commands, rule by rule -/

/-- 44_control.md R203: NOP completes with `complete(0)` and does nothing else. -/
def Obligations.NopFollowsItsRule : Prop :=
  ∀ s : State, exec .nop s = .next (completed s 0)

/-- 40_huffman_model.md R110: FREQ_COUNT. -/
def Obligations.FreqCountFollowsItsRule : Prop :=
  ∀ s : State,
    (∀ e, freqCountChecks s = some e → exec .freqCount s = .next (raised s e)) ∧
    (freqCountChecks s = none → exec .freqCount s = .next (completed { s with
      tables := countedTables s (countFreq (symbols s))
      result := { s.result with count := BitVec.ofNat 32 (len s / 4) } } 0))

/-- 40_huffman_model.md R112: FREQ_LOAD. -/
def Obligations.FreqLoadFollowsItsRule : Prop :=
  ∀ s : State,
    (∀ e, freqLoadChecks s = some e → exec .freqLoad s = .next (raised s e)) ∧
    (freqLoadChecks s = none → exec .freqLoad s = .next (completed { s with
      tables := countedTables s (headerTable s (field s 0 4)) } 0))

/-- 40_huffman_model.md R114: TREE_BUILD. -/
def Obligations.TreeBuildFollowsItsRule : Prop :=
  ∀ s : State,
    (s.tables.ft = [] → exec .treeBuild s = .next (raised s .emptyInput)) ∧
    (s.tables.ft ≠ [] → exec .treeBuild s = .next (completed { s with
      tables := { s.tables with
        tree := buildTree s.tables.ft, treeValid := true, ctValid := false } } 0))

/-- 40_huffman_model.md R116: CODE_GEN. -/
def Obligations.CodeGenFollowsItsRule : Prop :=
  ∀ s : State,
    let C := buildCodes s.tables.tree
    (s.tables.treeValid = false → exec .codeGen s = .next (raised s .sequence)) ∧
    (s.tables.treeValid = true → (∃ c ∈ C, s.params.maxCodeLen < c.length) →
      exec .codeGen s = .next (raised s .capacity)) ∧
    (s.tables.treeValid = true → (∀ c ∈ C, c.length ≤ s.params.maxCodeLen) →
      exec .codeGen s = .next (completed { s with
        tables := { s.tables with ct := C, ctValid := true } } 0))

/-- 40_huffman_model.md R119: CLEAR_TABLES. -/
def Obligations.ClearTablesFollowsItsRule : Prop :=
  ∀ s : State, exec .clearTables s = .next (completed { s with
    tables := { s.tables with ft := [], treeValid := false, ctValid := false } } 0)

/-- 41_text_codec.md R141: HUFF_PACK. -/
def Obligations.HuffPackFollowsItsRule : Prop :=
  ∀ s : State,
    let p := pack (symbols s) s.tables.ft s.tables.ct
    (∀ e, huffPackChecks s = some e → exec .huffPack s = .next (raised s e)) ∧
    (huffPackChecks s = none → exec .huffPack s = .next (completed { s with
      mem := stored s p.bytes
      result := { s.result with
        pad := BitVec.ofNat 3 p.pad, bitlen := BitVec.ofNat 64 p.bitLen
        count := BitVec.ofNat 32 (len s / 4) } } p.bytes.length))

/-- 41_text_codec.md R142 with the layout of 30_encoding.md R90: TEXT_ENCODE. -/
def Obligations.TextEncodeFollowsItsRule : Prop :=
  ∀ s : State,
    let F := countFreq (symbols s)
    let T := buildTree F
    let C := buildCodes T
    let p := pack (symbols s) F C
    (∀ e, textEncodeChecks s = some e → exec .textEncode s = .next (raised s e)) ∧
    (textEncodeChecks s = none → exec .textEncode s = .next (completed { s with
      mem := stored s (textLayout F p)
      tables := { ft := F, tree := T, treeValid := true, ct := C, ctValid := true }
      result := { s.result with
        pad := BitVec.ofNat 3 p.pad, bitlen := BitVec.ofNat 64 p.bitLen
        count := BitVec.ofNat 32 (len s / 4) } } (9 + 12 * F.length + p.bytes.length)))

/-- 42_image_rle.md R161 with the layout of 30_encoding.md R91: IMG_ENCODE. -/
def Obligations.ImgEncodeFollowsItsRule : Prop :=
  ∀ s : State,
    let W := (operands s).regs.imgWidth.toNat
    let H := (operands s).regs.imgHeight.toNat
    let runs := rleImg (pixels s)
    (∀ e, imgEncodeChecks s = some e → exec .imgEncode s = .next (raised s e)) ∧
    (imgEncodeChecks s = none → exec .imgEncode s = .next (completed { s with
      mem := stored s (imageLayout W H runs)
      result := { s.result with
        runs := BitVec.ofNat 32 runs.length, count := BitVec.ofNat 32 (len s / 3) } }
      (12 + 4 * runs.length)))

/-- 42_image_rle.md R162 and R163: IMG_DECODE with its parser. -/
def Obligations.ImgDecodeFollowsItsRule : Prop :=
  ∀ s : State,
    let W := field s 0 4
    let H := field s 4 4
    let out := ((imageRuns s).map fun r =>
      (List.replicate r.2 [r.1.r, r.1.g, r.1.b]).flatten).flatten
    (∀ e, imgDecodeChecks s = some e → exec .imgDecode s = .next (raised s e)) ∧
    (imgDecodeChecks s = none → exec .imgDecode s = .next (completed { s with
      mem := stored s out
      regs := { s.regs with imgWidth := BitVec.ofNat 32 W, imgHeight := BitVec.ofNat 32 H }
      result := { s.result with
        runs := BitVec.ofNat 32 (field s 8 4), count := BitVec.ofNat 32 (W * H) } }
      (3 * (W * H))))

/-- 43_audio_rle.md R181 with the layout of 30_encoding.md R92: AUD_ENCODE. -/
def Obligations.AudEncodeFollowsItsRule : Prop :=
  ∀ s : State,
    let runs := rleAud (buckets s)
    (∀ e, audEncodeChecks s = some e → exec .audEncode s = .next (raised s e)) ∧
    (audEncodeChecks s = none → exec .audEncode s = .next (completed { s with
      mem := stored s (audioLayout (operands s).regs runs)
      result := { s.result with
        runs := BitVec.ofNat 32 runs.length, count := BitVec.ofNat 32 (len s / 2) } }
      (20 + 8 * runs.length)))

/-- 43_audio_rle.md R183, R184 and R185: AUD_DECODE with its parser and the saturation. -/
def Obligations.AudDecodeFollowsItsRule : Prop :=
  ∀ s : State,
    let ch := field s 0 2
    let fr := field s 8 4
    let out := ((audioRuns s).map fun r =>
      (List.replicate r.2 (toBE 2 (saturate r.1 % 2 ^ 16).toNat)).flatten).flatten
    (∀ x : Int, clamp16 x = saturate x) ∧
    (∀ e, audDecodeChecks s = some e → exec .audDecode s = .next (raised s e)) ∧
    (audDecodeChecks s = none → exec .audDecode s = .next (completed { s with
      mem := stored s out
      regs := { s.regs with
        audChannels := BitVec.ofNat 16 ch, audSwidth := BitVec.ofNat 16 (field s 2 2)
        audRate := BitVec.ofNat 32 (field s 4 4), audFrames := BitVec.ofNat 32 fr }
      result := { s.result with
        runs := BitVec.ofNat 32 (field s 16 4), count := BitVec.ofNat 32 (fr * ch) }
      status := { s.status with
        sat := decide (∃ r ∈ audioRuns s, r.1 < -32768 ∨ 32767 < r.1) } } (2 * (fr * ch))))

/-! ### The functions the commands share -/

/-- 40_huffman_model.md R111: `count_freq`: the distinct symbols in strictly ascending order, each
with its number of occurrences, which is at least 1, and at most 2^30-1 for any text that SRC_LEN
admits; the counts sum to the input's length. -/
def Obligations.CountFreqCountsEverySymbolOnce : Prop :=
  ∀ syms : List Word, syms.length < 2 ^ 64 →
    (∀ (i j : Nat) (d e : FreqEntry), i < j → (countFreq syms)[i]? = some d →
      (countFreq syms)[j]? = some e → d.sym.toNat < e.sym.toNat) ∧
    (∀ e ∈ countFreq syms, e.sym ∈ syms ∧ e.freq.toNat = syms.count e.sym ∧
      1 ≤ e.freq.toNat ∧ (syms.length < 2 ^ 30 → e.freq.toNat ≤ 2 ^ 30 - 1)) ∧
    (∀ x ∈ syms, ∃ e ∈ countFreq syms, e.sym = x) ∧
    ((countFreq syms).map fun e => e.freq.toNat).sum = syms.length

/-- 40_huffman_model.md R115: `build_tree` is the greedy construction: the leaves stand first, in FT
order; each internal node takes as its left child the first and as its right child the second of the
nodes still queued, by (frequency, index), and its frequency is their sum, which fits in 64 bits
(10_state.md R41). -/
def Obligations.BuildTreeIsGreedy : Prop :=
  ∀ ft : List FreqEntry, ft ≠ [] → freqSum ft ≤ 2 ^ 64 - 1 →
    let t := buildTree ft
    let n := ft.length
    t.root = 2 * n - 2 ∧ t.nodes.length = 2 * n - 1 ∧
    (∀ (i : Nat) (e : FreqEntry), ft[i]? = some e → t.nodes[i]? = some (.leaf e.sym e.freq)) ∧
    (∀ k, n ≤ k → k < 2 * n - 1 → ∃ f a b, t.nodes[k]? = some (.internal f a b) ∧
      f.toNat = freqAt t a + freqAt t b ∧ a ≠ b ∧ Queued t a k ∧ Queued t b k ∧
      (∀ x, Queued t x k → x = a ∨ Before t a x) ∧
      (∀ x, Queued t x k → x = a ∨ x = b ∨ Before t b x))

/-- 10_state.md R42: the arena of a valid tree. -/
def Obligations.ValidTreeArena : Prop :=
  ∀ s : State, s.Inv → s.tables.treeValid = true →
    let t := s.tables.tree
    let n := s.tables.ft.length
    1 ≤ n ∧ t.nodes.length = 2 * n - 1 ∧ t.root = 2 * n - 2 ∧
    (∀ (i : Nat) (e : FreqEntry), s.tables.ft[i]? = some e → t.nodes[i]? = some (.leaf e.sym e.freq)) ∧
    (∀ k, n ≤ k → k < 2 * n - 1 → ∃ f l r, t.nodes[k]? = some (.internal f l r) ∧
      l < k ∧ r < k ∧ f.toNat = freqAt t l + freqAt t r)

/-- 10_state.md R43: in a valid tree every node other than the root is the child of exactly one
internal node, on one side only, and the root of none; TREE is `build_tree` of the current FT. -/
def Obligations.ValidTreeSharesNoNode : Prop :=
  ∀ s : State, s.Inv → s.tables.treeValid = true →
    let t := s.tables.tree
    t = buildTree s.tables.ft ∧
    (∀ x, x < t.nodes.length → x ≠ t.root → ∃ k, IsChild t x k ∧ ∀ j, IsChild t x j → j = k) ∧
    (∀ k, ¬ IsChild t t.root k) ∧
    (∀ (k : Nat) (f : DWord) (l r : Nat), t.nodes[k]? = some (.internal f l r) → l ≠ r)

/-- 40_huffman_model.md R117: `build_codes` gives every leaf its root path, 0 to the left and 1 to
the right; a tree of one leaf gets the code 0. -/
def Obligations.CodesAreRootPaths : Prop :=
  ∀ ft : List FreqEntry,
    (ft.length = 1 → buildCodes (buildTree ft) = [[false]]) ∧
    (2 ≤ ft.length → (buildCodes (buildTree ft)).length = ft.length ∧
      ∀ i c, (buildCodes (buildTree ft))[i]? = some c →
        follow (buildTree ft) (buildTree ft).root c = some i)

/-- 10_state.md R44 and R45: a valid code table has one code for each entry of FT, of 1 to
P_MAX_CODE_LEN bits, and is the result of `build_codes` on the current TREE; it is prefix-free, and
with one symbol its code is the single bit 0. -/
def Obligations.ValidCodesArePrefixFree : Prop :=
  ∀ s : State, s.Inv → s.tables.ctValid = true →
    s.tables.ct.length = s.tables.ft.length ∧
    (∀ c ∈ s.tables.ct, 1 ≤ c.length ∧ c.length ≤ s.params.maxCodeLen) ∧
    s.tables.ct = buildCodes s.tables.tree ∧
    (∀ (i j : Nat) (c d : Code), i ≠ j → s.tables.ct[i]? = some c → s.tables.ct[j]? = some d →
      ¬ c <+: d) ∧
    (s.tables.ft.length = 1 → s.tables.ct = [[false]])

/-- 40_huffman_model.md R118 point 2: for two or more symbols every code has 1 to n-1 bits, and the
Kraft sum is 1. -/
def Obligations.CodeLengthsFillTheTree : Prop :=
  ∀ ft : List FreqEntry, 2 ≤ ft.length →
    (∀ c ∈ buildCodes (buildTree ft), 1 ≤ c.length ∧ c.length ≤ ft.length - 1) ∧
    ((buildCodes (buildTree ft)).map fun c => (1 / 2 : ℚ) ^ c.length).sum = 1

/-- 41_text_codec.md R140 and R143 point 4. `pack` packs the symbols' codes, in input order, as
`pack_bits` does; in a table with distinct symbols, and so in every valid one, `codeOf` gives a symbol
its CT code, and a valid code table has a code for every symbol of FT. The packed bytes and the bit
length determine the text, so a decoder that knows the code table recovers exactly the symbols. -/
def Obligations.PackedTextIsUniquelyDecodable : Prop :=
  (∀ (xs : List Word) (ft : List FreqEntry) (ct : List Code),
    pack xs ft ct = packBits (xs.flatMap (codeOf ft ct)) ∧
    (pack xs ft ct).bitLen = (xs.map fun x => (codeOf ft ct x).length).sum) ∧
  (∀ (ft : List FreqEntry) (ct : List Code) (i : Nat) (e : FreqEntry) (c : Code),
    (∀ (j : Nat) (d : FreqEntry), ft[j]? = some d → d.sym = e.sym → j = i) →
    ft[i]? = some e → ct[i]? = some c → codeOf ft ct e.sym = c) ∧
  (∀ s : State, s.Inv → s.tables.ctValid = true →
    (∀ e ∈ s.tables.ft, ∃ c, IsCodeOf s.tables e.sym c) ∧
    (∀ x c, IsCodeOf s.tables x c → codeOf s.tables.ft s.tables.ct x = c) ∧
    (∀ xs ys : List Word,
      (∀ x ∈ xs, ∃ c, IsCodeOf s.tables x c) → (∀ y ∈ ys, ∃ c, IsCodeOf s.tables y c) →
      (pack xs s.tables.ft s.tables.ct).bytes = (pack ys s.tables.ft s.tables.ct).bytes →
      (pack xs s.tables.ft s.tables.ct).bitLen = (pack ys s.tables.ft s.tables.ct).bitLen →
        xs = ys))

/-- 30_encoding.md R93: stream bit k goes to byte k div 8 at bit position 7 - (k mod 8); the final
byte's unused positions hold zero, and P counts them. -/
def Obligations.PackBitsIsMsbFirst : Prop :=
  ∀ bits : List Bool,
    let p := packBits bits
    p.bitLen = bits.length ∧ p.bytes.length = (bits.length + 7) / 8 ∧ p.pad ≤ 7 ∧
    8 * p.bytes.length = bits.length + p.pad ∧
    (∀ k b, bits[k]? = some b →
      ∃ y, p.bytes[k / 8]? = some y ∧ y.getLsbD (7 - k % 8) = b) ∧
    (∀ k y, bits.length ≤ k → p.bytes[k / 8]? = some y → y.getLsbD (7 - k % 8) = false)

/-- 42_image_rle.md R160: the runs expand to the pixels, every length is in 1 to 255, adjacent runs
have one color only where the first has length 255; L equal pixels become L div 255 runs of 255 and
one of L mod 255. R160 speaks of non-empty sequences: that no pixels (L = 0) give no runs is the
model's choice (log 17). -/
def Obligations.ImageRunsAreCappedAndExact : Prop :=
  (∀ p : List Pixel, p ≠ [] →
    ((rleImg p).map fun r => List.replicate r.2 r.1).flatten = p ∧
    (∀ r ∈ rleImg p, 1 ≤ r.2 ∧ r.2 ≤ 255) ∧
    (∀ (i : Nat) (a b : Pixel × Nat), (rleImg p)[i]? = some a → (rleImg p)[i + 1]? = some b →
      a.1 = b.1 → a.2 = 255)) ∧
  (∀ (c : Pixel) (L : Nat), rleImg (List.replicate L c) =
    List.replicate (L / 255) (c, 255) ++ if L % 255 = 0 then [] else [(c, L % 255)])

/-- 43_audio_rle.md R182: the runs expand to the values, are not empty, and are maximal. -/
def Obligations.AudioRunsAreMaximal : Prop :=
  ∀ v : List Int, v ≠ [] →
    ((rleAud v).map fun r => List.replicate r.2 r.1).flatten = v ∧
    (∀ r ∈ rleAud v, 1 ≤ r.2) ∧
    (∀ (i : Nat) (a b : Int × Nat), (rleAud v)[i]? = some a → (rleAud v)[i + 1]? = some b →
      a.1 ≠ b.1)

/-- 43_audio_rle.md R180: the bucket of a sample, truncating (mode 0) or floor (mode 1). -/
def Obligations.QuantizeRoundsByItsMode : Prop :=
  ∀ (x : Int) (q : Nat), -32768 ≤ x → x ≤ 32767 → 1 ≤ q → q ≤ 2 ^ 31 - 1 →
    (∃ k : Int, quantize x q false = k * q) ∧ |quantize x q false| ≤ |x| ∧
    |x| - |quantize x q false| < q ∧ 0 ≤ x * quantize x q false ∧
    -32768 ≤ quantize x q false ∧ quantize x q false ≤ 32767 ∧
    (∃ k : Int, quantize x q true = k * q) ∧
    x - q + 1 ≤ quantize x q true ∧ quantize x q true ≤ x ∧
    -(2 ^ 31 - 1) ≤ quantize x q true ∧ quantize x q true ≤ 32767 ∧
    ((0 ≤ x ∨ (q : Int) ∣ x) → quantize x q false = quantize x q true)

/-! ### Headline properties -/

/-- 42_image_rle.md R164: the lossless round trip. `s` encodes; `u` is any later state whose source
range is the artifact, with its bytes as IMG_ENCODE left them and a destination that is big enough;
then IMG_DECODE of `u` writes the pixels back and returns width and height. -/
def Obligations.ImageRoundTripIsLossless : Prop :=
  ∀ s t u : State, exec .imgEncode s = .next t → t.status.err = .none →
    src u = dst s → len u = t.outLen.toNat →
    (∀ a, InSrc u a → u.mem.read a = t.mem.read a) →
    ¬ SrcBad u → ¬ DstBad u → len s ≤ cap u →
      ∃ v, exec .imgDecode u = .next v ∧ v.status.err = .none ∧ v.outLen.toNat = len s ∧
        (∀ k, k < len s → v.mem.read (dst u + k) = s.mem.read (src s + k)) ∧
        v.regs.imgWidth = (operands s).regs.imgWidth ∧ v.regs.imgHeight = (operands s).regs.imgHeight

/-- 43_audio_rle.md R186: the lossy round trip. AUD_DECODE of AUD_ENCODE's artifact writes the
clamped buckets and restores the params; in mode 0 nothing is clamped; in mode 1 SAT says whether a
bucket lay below -32768; with q = 1 the samples come back exactly. -/
def Obligations.AudioRoundTripIsQuantization : Prop :=
  ∀ s t u : State, exec .audEncode s = .next t → t.status.err = .none →
    src u = dst s → len u = t.outLen.toNat →
    (∀ a, InSrc u a → u.mem.read a = t.mem.read a) →
    ¬ SrcBad u → ¬ DstBad u → len s ≤ cap u →
      let q := (operands s).regs.qstep.toNat
      let f := (operands s).qfloor
      let x := fun k => s.mem.readSigned (src s + 2 * k) 2
      ∃ v, exec .audDecode u = .next v ∧ v.status.err = .none ∧ v.outLen.toNat = len s ∧
        (∀ k, k < len s / 2 →
          v.mem.readSigned (dst u + 2 * k) 2 = clamp16 (quantize (x k) q f)) ∧
        v.regs.audChannels = (operands s).regs.audChannels ∧
        v.regs.audSwidth = (operands s).regs.audSwidth ∧
        v.regs.audRate = (operands s).regs.audRate ∧ v.regs.audFrames = (operands s).regs.audFrames ∧
        (f = false → v.status.sat = false ∧ ∀ k, k < len s / 2 →
          v.mem.readSigned (dst u + 2 * k) 2 = Int.tdiv (x k) q * q) ∧
        (f = true → (v.status.sat = true ↔ ∃ k, k < len s / 2 ∧ Int.fdiv (x k) q * q < -32768) ∧
          ∀ k, k < len s / 2 → v.mem.readSigned (dst u + 2 * k) 2 =
            max (-32768) (Int.fdiv (x k) q * q)) ∧
        (q = 1 → ∀ k, k < len s / 2 → v.mem.readSigned (dst u + 2 * k) 2 = x k)

/-- 40_huffman_model.md R113: FREQ_LOAD, TREE_BUILD and CODE_GEN over a text artifact rebuild the
encoder's tables, codes and all. -/
def Obligations.ArtifactRebuildsTheEncodersTables : Prop :=
  ∀ s t u : State, exec .textEncode s = .next t → t.status.err = .none →
    u.params = s.params → src u = dst s → len u = t.outLen.toNat →
    (∀ a, InSrc u a → u.mem.read a = t.mem.read a) → ¬ SrcBad u →
      ∃ v w x, exec .freqLoad u = .next v ∧ v.tables.ft = t.tables.ft ∧
        exec .treeBuild v = .next w ∧ exec .codeGen w = .next x ∧ x.tables = t.tables

/-- 41_text_codec.md R142 (corner cases): after TEXT_ENCODE the tables are exactly what FREQ_COUNT,
TREE_BUILD and CODE_GEN on the same source give. -/
def Obligations.TextEncodeTablesAreTheStepwiseTables : Prop :=
  ∀ s t : State, exec .textEncode s = .next t → t.status.err = .none →
    ∃ v w x, exec .freqCount s = .next v ∧ exec .treeBuild v = .next w ∧
      exec .codeGen w = .next x ∧ x.tables = t.tables ∧ x.status.err = .none ∧
      x.result.count = t.result.count

/-! ### Rules about every command -/

/-- 20_memory.md R67: a command reads only its source range: with any other memory that agrees
there, it ends the same way and writes the same bytes. It changes no byte outside DST_ADDR to
DST_ADDR + OUT_LEN - 1, with OUT_LEN at most DST_CAP; a failed command changes none. -/
def Obligations.CommandsStayInTheirRanges : Prop :=
  ∀ (i : Instr) (s t : State), exec i s = .next t →
    (∀ a, (a < dst s ∨ dst s + t.outLen.toNat ≤ a) → t.mem.read a = s.mem.read a) ∧
    t.outLen.toNat ≤ cap s ∧
    (t.status.err ≠ .none → t.mem = s.mem) ∧
    (∀ m : Memory, (∀ a, InSrc s a → m.read a = s.mem.read a) →
      ∃ t', exec i { s with mem := m } = .next t' ∧ t' = { t with mem := t'.mem } ∧
        ∀ a, dst s ≤ a → a < dst s + t.outLen.toNat → t'.mem.read a = t.mem.read a)

/-- 60_exceptions.md R213: a failed command changes STATUS and OUT_LEN and nothing else, and leaves
SAT at 0. -/
def Obligations.FailedCommandChangesStatusAndOutLenOnly : Prop :=
  ∀ (i : Instr) (s t : State), exec i s = .next t → t.status.err ≠ .none →
    t = { s with
      outLen := 0
      status := { done := true, lost := s.status.lost, sat := s.status.sat, err := t.status.err }
      seq := .idle } ∧
    (s.status.sat = false → t.status.sat = false)

/-- 10_state.md R46: which command changes FT and the validity flags, on success only, and that
CT_VALID implies TREE_VALID implies n >= 1. -/
def Obligations.ValidityFlagsFollowTheirTable : Prop :=
  (∀ s : State, s.Inv → (s.tables.ctValid = true → s.tables.treeValid = true) ∧
    (s.tables.treeValid = true → 1 ≤ s.tables.ft.length)) ∧
  (∀ (i : Instr) (s t : State), exec i s = .next t →
    (t.status.err ≠ .none → t.tables = s.tables) ∧
    (t.status.err = .none →
      (i = .freqCount ∨ i = .freqLoad →
        t.tables.treeValid = false ∧ t.tables.ctValid = false) ∧
      (i = .freqCount → t.tables.ft = countFreq (symbols s)) ∧
      (i = .freqLoad → t.tables.ft = headerTable s (field s 0 4)) ∧
      (i = .treeBuild → t.tables.ft = s.tables.ft ∧ t.tables.treeValid = true ∧
        t.tables.ctValid = false) ∧
      (i = .codeGen → t.tables.ft = s.tables.ft ∧ t.tables.treeValid = true ∧
        s.tables.treeValid = true ∧ t.tables.ctValid = true) ∧
      (i = .textEncode → t.tables.ft = countFreq (symbols s) ∧ t.tables.treeValid = true ∧
        t.tables.ctValid = true) ∧
      (i = .clearTables → t.tables.ft = [] ∧ t.tables.treeValid = false ∧
        t.tables.ctValid = false) ∧
      (i ∈ [Instr.nop, .huffPack, .imgEncode, .imgDecode, .audEncode, .audDecode] →
        t.tables = s.tables)))

/-- 60_exceptions.md R210: the numbers of the error codes, and which command may report which. The
completion of a word in flight reports ILLEGAL_COMMAND exactly when the word decodes to no command
(44_control.md R204). -/
def Obligations.ErrorCodesAndWhoReportsThem : Prop :=
  [ErrCode.none, .emptyInput, .corruptStream, .invalidParameter, .capacity, .sequence,
    .illegalCommand, .addressError, .noCode].map ErrCode.code = [0, 1, 2, 3, 4, 5, 6, 7, 8] ∧
  (∀ (i : Instr) (s t : State), exec i s = .next t → t.status.err ∈ mayReport i) ∧
  (∀ (s t : State) (f : InFlight) (es : List Event), s.seq = .busy f → EngineNext s es →
    step s = .next t → (t.status.err = .illegalCommand ↔ ∀ i, decode f.word ≠ .ok i))

/-- 30_encoding.md R83, 10_state.md R32 and R48: the frame of every command: what it leaves as it
was. Every command always answers a next state. -/
def Obligations.CommandFrame : Prop :=
  ∀ (i : Instr) (s : State), ∃ t, exec i s = .next t ∧
    t.params = s.params ∧ t.cmd = s.cmd ∧ t.ctrl = s.ctrl ∧ t.tblIndex = s.tblIndex ∧
    t.nodeIndex = s.nodeIndex ∧ t.agenda = s.agenda ∧ t.response = s.response ∧
    t.draws = s.draws ∧ t.seq = .idle ∧ t.status.done = true ∧ t.status.lost = s.status.lost ∧
    (i ≠ .audDecode → t.status.sat = s.status.sat) ∧
    (i ≠ .imgDecode → i ≠ .audDecode → t.regs = s.regs) ∧
    (i = .imgDecode → t.regs =
      { s.regs with imgWidth := t.regs.imgWidth, imgHeight := t.regs.imgHeight }) ∧
    (i = .audDecode → t.regs =
      { s.regs with
        audChannels := t.regs.audChannels, audSwidth := t.regs.audSwidth
        audRate := t.regs.audRate, audFrames := t.regs.audFrames }) ∧
    (i ∉ [Instr.huffPack, .textEncode] →
      t.result.pad = s.result.pad ∧ t.result.bitlen = s.result.bitlen) ∧
    (i ∉ [Instr.imgEncode, .imgDecode, .audEncode, .audDecode] →
      t.result.runs = s.result.runs) ∧
    (i ∈ [Instr.nop, .freqLoad, .treeBuild, .codeGen, .clearTables] →
      t.result.count = s.result.count) ∧
    (i ∉ writesMemory → t.mem = s.mem ∧ t.outLen = 0) ∧
    (i ∉ [Instr.freqCount, .freqLoad, .treeBuild, .codeGen, .textEncode, .clearTables] →
      t.tables = s.tables) ∧
    (i ∉ [Instr.freqCount, .freqLoad, .textEncode, .clearTables] → t.tables.ft = s.tables.ft) ∧
    (i ∉ [Instr.treeBuild, .textEncode] → t.tables.tree = s.tables.tree) ∧
    (i ∉ [Instr.codeGen, .textEncode] → t.tables.ct = s.tables.ct)

/-- 44_control.md R207: the document-level operations do not depend on tables that earlier commands
left. -/
def Obligations.ArtifactCommandsIgnoreOldTables : Prop :=
  ∀ (i : Instr) (s t : State) (T : Tables),
    i ∈ [Instr.textEncode, .imgEncode, .imgDecode, .audEncode, .audDecode] → exec i s = .next t →
      ∃ t', exec i { s with tables := T } = .next t' ∧ t' = { t with tables := t'.tables } ∧
        (i = .textEncode → t.status.err = .none → t'.tables = t.tables) ∧
        (i ≠ .textEncode → t'.tables = T)

/-! ### The machine -/

/-- The invariant holds after reset, for any parameters in range (00_scope.md R7). -/
def Obligations.ResetMeetsTheInvariant : Prop :=
  ∀ p : Params, p.wf = true → (State.resetFor p).Inv

/-- Every step keeps the invariant: memory stays canonical and inside P_MEM_SIZE (20_memory.md R60),
FT stays ascending and bounded (10_state.md R40, R41), a valid TREE and CT are those of the current
FT (R43, R44, R46), and the latched operands equal the registers (R39). The second clause writes out
its order and its bounds. -/
def Obligations.StepKeepsTheInvariant : Prop :=
  (∀ s t : State, s.Inv → step s = .next t → t.Inv) ∧
  (∀ s : State, s.Inv →
    s.mem.cells.Pairwise (fun c d => c.1 < d.1) ∧ (∀ c ∈ s.mem.cells, c.1 < s.params.memSize) ∧
    s.tables.ft.Pairwise (fun d e => d.sym.toNat < e.sym.toNat) ∧
    s.tables.ft.length ≤ s.params.maxSymbols ∧
    (s.tables.ft.map fun e => e.freq.toNat).sum ≤ 2 ^ 64 - 1 ∧
    (s.busy = true → operands s = { regs := s.regs, qfloor := (operands s).qfloor }))

/-- 00_scope.md R7: no step changes the instance's parameters; and, as 60_exceptions.md R231 says,
nothing changes while the block is IDLE and the engine moves. -/
def Obligations.ParametersNeverChange : Prop :=
  (∀ s t : State, step s = .next t → t.params = s.params) ∧
  (∀ (s : State) (es : List Event), s.seq = .idle → EngineNext s es →
    step s = .next { s with agenda := es })

/-- 70_reset_and_hazards.md R240: a reset gives every register its reset value, empties the tables,
makes the sequencer IDLE and lowers IRQ; while IDLE it changes no byte of buffer memory. A reset is
one event (log 23). -/
def Obligations.ResetGivesTheResetColumn : Prop :=
  ∀ (s : State) (es : List Event), s.agenda = .reset :: es →
    ∃ t, step s = .next t ∧ (∀ p ∈ resetColumn, t.readReg p.1 = p.2) ∧ t.seq = .idle ∧
      t.status = { done := false, lost := false, sat := false, err := .none } ∧
      t.ctrl = { irqEn := false, qfloor := false } ∧ t.tables.ft = [] ∧
      t.tables.treeValid = false ∧ t.tables.ctValid = false ∧ t.irq = false ∧
      t.params = s.params ∧ (s.busy = false → t.mem = s.mem)

/-- 70_reset_and_hazards.md R241: a reset while BUSY abandons the command. Every byte of its
destination range then holds a free value of its own; source bytes and all others keep theirs. A
byte in both ranges counts as a source byte (log 8); the ranges are the latched ones whatever the
command (log 9). -/
def Obligations.ResetDuringACommand : Prop :=
  ∀ (s : State) (f : InFlight) (es : List Event), s.seq = .busy f → s.agenda = .reset :: es →
    ∃ t, step s = .next t ∧ t.seq = .idle ∧ (∀ p ∈ resetColumn, t.readReg p.1 = p.2) ∧
      (∀ a, (InSrc s a ∨ ¬ InDst s a ∨ s.params.memSize ≤ a) →
        t.mem.read a = s.mem.read a) ∧
      ∃ d : Nat → Nat, (∀ a b, d a = d b → a = b) ∧
        ∀ a, InDst s a → ¬ InSrc s a → a < s.params.memSize →
          s.draws ≤ d a ∧ d a < t.draws ∧ t.mem.read a = Config.freeByte (d a)
end

