-- ==== Sys2Proof/Laws/Bytes.lean ====
section
/-! SUPPORT. Big-endian numbers and the lengths of everything a command writes. -/

namespace Sys2Proof.Machine

@[simp] theorem length_toBE (n v : Nat) : (toBE n v).length = n := by
  induction n with
  | zero => rfl
  | succ n ih => simp [toBE, ih]

theorem foldl_beNat (bs : List Byte) (acc : Nat) :
    bs.foldl (fun acc b => acc * 256 + b.toNat) acc = acc * 256 ^ bs.length + beNat bs := by
  induction bs generalizing acc with
  | nil => simp [beNat]
  | cons b bs ih =>
    have h : beNat (b :: bs) = b.toNat * 256 ^ bs.length + beNat bs := by
      rw [← ih b.toNat]; simp [beNat]
    rw [List.foldl_cons, ih, h, List.length_cons, pow_succ]
    ring

theorem beNat_cons (b : Byte) (bs : List Byte) :
    beNat (b :: bs) = b.toNat * 256 ^ bs.length + beNat bs := by
  simpa [beNat] using foldl_beNat bs b.toNat

/-- What `toBE` writes reads back, modulo its width. -/
theorem beNat_toBE (n v : Nat) : beNat (toBE n v) = v % 256 ^ n := by
  induction n with
  | zero => simp [toBE, beNat, Nat.mod_one]
  | succ n ih =>
    have hm : v % 256 ^ (n + 1) = v % 256 ^ n + 256 ^ n * (v / 256 ^ n % 256) := by
      rw [pow_succ, Nat.mod_mul]
    rw [toBE, beNat_cons, ih, length_toBE, BitVec.toNat_ofNat, hm, Nat.mul_comm, Nat.add_comm]

theorem beNat_toBE_of_lt {n v : Nat} (h : v < 256 ^ n) : beNat (toBE n v) = v := by
  rw [beNat_toBE, Nat.mod_eq_of_lt h]

theorem beNat_lt (bs : List Byte) : beNat bs < 256 ^ bs.length := by
  induction bs with
  | nil => simp [beNat]
  | cons b bs ih =>
    have hb : b.toNat ≤ 255 := by have := b.isLt; omega
    rw [beNat_cons, List.length_cons, pow_succ]
    have : b.toNat * 256 ^ bs.length ≤ 255 * 256 ^ bs.length := Nat.mul_le_mul_right _ hb
    omega

/-- A number of `n` bytes is below `256 ^ n`. -/
theorem Memory.readBE_lt (m : Memory) (a n : Nat) : m.readBE a n < 256 ^ n := by
  simpa [Memory.readBE, Memory.bytes] using beNat_lt (m.bytes a n)

@[simp] theorem length_i32be (v : Int) : (i32be v).length = 4 := by simp [i32be]

@[simp] theorem length_packBytes (m : Nat) (bits : List Bool) : (packBytes m bits).length = m := by
  induction m generalizing bits with
  | zero => rfl
  | succ m ih => simp [packBytes, ih]

@[simp] theorem length_pixelBytes (p : Pixel) : p.bytes.length = 3 := rfl

@[simp] theorem length_sampleBytes (x : Int) : (sampleBytes x).length = 2 := by simp [sampleBytes]

@[simp] theorem length_entryBytes (e : FreqEntry) : e.bytes.length = 12 := by simp [FreqEntry.bytes]

theorem length_flatMap_const {α β : Type} (l : List α) (f : α → List β) (k : Nat)
    (h : ∀ x ∈ l, (f x).length = k) : (l.flatMap f).length = k * l.length := by
  induction l with
  | nil => simp
  | cons x xs ih =>
    simp only [List.flatMap_cons, List.length_append, List.length_cons]
    rw [h x (by simp), ih fun y hy => h y (by simp [hy])]; ring

/-- The text artifact has `9 + 12n + M` bytes (30_encoding.md R90). -/
theorem length_textArtifact (ft : List FreqEntry) (p : Packed) :
    (textArtifact ft p).length = 9 + 12 * ft.length + p.bytes.length := by
  simp only [textArtifact, List.length_append, length_toBE,
    length_flatMap_const ft FreqEntry.bytes 12 (by simp)]
  omega

/-- The image artifact has `12 + 4 RC` bytes (30_encoding.md R91). -/
theorem length_imgArtifact (w h : Nat) (runs : List (Pixel × Nat)) :
    (imgArtifact w h runs).length = 12 + 4 * runs.length := by
  simp only [imgArtifact, List.length_append, length_toBE]
  rw [length_flatMap_const runs _ 4 (by simp)]

/-- The audio artifact has `20 + 8 RC` bytes (30_encoding.md R92). -/
theorem length_audArtifact (p : AudioParams) (q : Nat) (runs : List (Int × Nat)) :
    (audArtifact p q runs).length = 20 + 8 * runs.length := by
  simp only [audArtifact, List.length_append, length_toBE]
  rw [length_flatMap_const runs _ 8 (by simp)]

/-- Expanded runs are as long as their lengths sum to. -/
theorem length_expand {α : Type} (runs : List (α × Nat)) : (expand runs).length = runTotal runs := by
  induction runs with
  | nil => rfl
  | cons r rs ih =>
    simp only [expand, runTotal, List.flatMap_cons, List.length_append, List.length_replicate,
      List.map_cons, List.sum_cons] at *
    rw [ih]

/-- The scan loses no element (the count that is running is `cnt`). -/
theorem runTotal_runsFrom {α : Type} [DecidableEq α] (cap : Option Nat) (cur : α) (cnt : Nat)
    (xs : List α) : runTotal (runsFrom cap cur cnt xs) = cnt + xs.length := by
  induction xs generalizing cur cnt with
  | nil => simp [runsFrom, runTotal]
  | cons x xs ih =>
    unfold runsFrom
    split
    · rw [ih]; simp; omega
    · have := ih x 1
      simp only [runTotal, List.map_cons, List.sum_cons] at *
      rw [this]; simp; omega

theorem runTotal_runsOf {α : Type} [DecidableEq α] (cap : Option Nat) (xs : List α) :
    runTotal (runsOf cap xs) = xs.length := by
  cases xs with
  | nil => rfl
  | cons x xs => rw [runsOf, runTotal_runsFrom]; simp; omega

end Sys2Proof.Machine
end

