-- ==== Sys2Proof/Laws/Completion.lean ====
section
/-! SUPPORT. The completion step said once: `exec` is `finish` of the command's result, a result is a
success or an error, and each command succeeds exactly when its checks pass. -/

namespace Sys2Proof.Machine

/-! ### Checks -/

/-- A check passes and the rest succeeds. -/
theorem raiseIf_bind_ok {α : Type} {bad : Bool} {e : ErrCode} {k : Unit → Except ErrCode α} {r : α} :
    (raiseIf bad e >>= k) = .ok r ↔ bad = false ∧ k () = .ok r := by
  cases bad <;> simp [raiseIf, bind, Except.bind]

/-- The first error is this check's, or the check passes and the rest fails. -/
theorem raiseIf_bind_error {α : Type} {bad : Bool} {e x : ErrCode} {k : Unit → Except ErrCode α} :
    (raiseIf bad e >>= k) = .error x ↔ (bad = true ∧ e = x) ∨ (bad = false ∧ k () = .error x) := by
  cases bad <;> simp [raiseIf, bind, Except.bind]

theorem raiseIf_true_bind {α : Type} (e : ErrCode) (k : Unit → Except ErrCode α) :
    (raiseIf true e >>= k) = .error e := rfl

theorem raiseIf_false_bind {α : Type} (e : ErrCode) (k : Unit → Except ErrCode α) :
    (raiseIf false e >>= k) = k () := rfl

theorem raiseIf_ok {bad : Bool} {e : ErrCode} {u : Unit} : raiseIf bad e = .ok u ↔ bad = false := by
  cases bad <;> simp [raiseIf]

theorem raiseIf_error {bad : Bool} {e x : ErrCode} :
    raiseIf bad e = .error x ↔ bad = true ∧ e = x := by
  cases bad <;> simp [raiseIf]

/-- A successful sequence is a success of both parts. -/
theorem except_bind_ok {α β : Type} {m : Except ErrCode α} {k : α → Except ErrCode β} {r : β} :
    (m >>= k) = .ok r ↔ ∃ x, m = .ok x ∧ k x = .ok r := by
  cases m <;> simp [bind, Except.bind]

/-- A failed sequence fails in its first part, or in its second after the first succeeded. -/
theorem except_bind_error {α β : Type} {m : Except ErrCode α} {k : α → Except ErrCode β}
    {e : ErrCode} :
    (m >>= k) = .error e ↔ m = .error e ∨ ∃ x, m = .ok x ∧ k x = .error e := by
  cases m <;> simp [bind, Except.bind]

theorem except_pure {α : Type} (x : α) : (pure x : Except ErrCode α) = .ok x := rfl

theorem checkSrc_ok {s : State} {u : Unit} :
    checkSrc s = .ok u ↔ srcInMemory s.params s.latched.regs = true := by
  simp [checkSrc, raiseIf_ok]

theorem checkDst_ok {s : State} {u : Unit} :
    checkDst s = .ok u ↔
      dstInMemory s.params s.latched.regs = true ∧ rangesOverlap s.latched.regs = false := by
  simp [checkDst, raiseIf_bind_ok, raiseIf_ok]

/-! ### `exec` -/

/-- How each command's pseudocode ends. -/
def resultOf : Instr → State → Result
  | .nop, s => nop s
  | .freqCount, s => freqCount s
  | .freqLoad, s => freqLoad s
  | .treeBuild, s => treeBuild s
  | .codeGen, s => codeGen s
  | .huffPack, s => huffPack s
  | .textEncode, s => textEncode s
  | .imgEncode, s => imgEncode s
  | .imgDecode, s => imgDecode s
  | .audEncode, s => audEncode s
  | .audDecode, s => audDecode s
  | .clearTables, s => clearTables s

/-- Every command is a completion step (44_control.md R201). -/
theorem exec_eq_finish (i : Instr) (s : State) : exec i s = .next (s.finish (resultOf i s)) := by
  cases i <;> rfl

/-- Everything a completion can be (60_exceptions.md R211, R213). -/
theorem exec_cases {i : Instr} {s t : State} (h : exec i s = .next t) :
    (∃ u out, resultOf i s = .ok (u, out) ∧ t = u.succeeded out) ∨
    (∃ e, resultOf i s = .error e ∧ t = s.failed e) := by
  rw [exec_eq_finish] at h
  obtain rfl : s.finish (resultOf i s) = t := by simpa using h
  cases hr : resultOf i s with
  | ok p => exact .inl ⟨p.1, p.2, rfl, rfl⟩
  | error e => exact .inr ⟨e, rfl, rfl⟩

theorem exec_of_ok {i : Instr} {s u : State} {out : Nat} (h : resultOf i s = .ok (u, out)) :
    exec i s = .next (u.succeeded out) := by
  rw [exec_eq_finish, h]; rfl

theorem exec_of_error {i : Instr} {s : State} {e : ErrCode} (h : resultOf i s = .error e) :
    exec i s = .next (s.failed e) := by
  rw [exec_eq_finish, h]; rfl

/-! ### Each command's success, said once -/

/-- NOP always succeeds (44_control.md R203). -/
theorem nop_ok {s u : State} {out : Nat} : nop s = .ok (u, out) ↔
    s = u ∧ 0 = out := by
  simp [nop]

/-- FREQ_COUNT succeeds (40_huffman_model.md R110). -/
theorem freqCount_ok {s u : State} {out : Nat} : freqCount s = .ok (u, out) ↔
    srcInMemory s.params s.latched.regs = true ∧ ¬ s.len = 0 ∧ s.len % 4 = 0 ∧
      (countFreq s.symbols).length ≤ s.params.maxSymbols ∧
      (s.setTables (s.tables.withFreq (countFreq s.symbols))).setResult
        { s.result with count := BitVec.ofNat 32 (s.len / 4) } = u ∧ 0 = out := by
  simp [freqCount, except_bind_ok, checkSrc_ok, raiseIf_ok, except_pure]

/-- FREQ_LOAD succeeds (40_huffman_model.md R112). -/
theorem freqLoad_ok {s u : State} {out : Nat} : freqLoad s = .ok (u, out) ↔
    srcInMemory s.params s.latched.regs = true ∧ 4 ≤ s.len ∧ ¬ s.srcRead 0 4 = 0 ∧
      4 + 12 * s.srcRead 0 4 ≤ s.len ∧ ascending (s.headerEntries (s.srcRead 0 4)) = true ∧
      freqSum (s.headerEntries (s.srcRead 0 4)) ≤ 18446744073709551615 ∧
      s.srcRead 0 4 ≤ s.params.maxSymbols ∧
      s.setTables (s.tables.withFreq (s.headerEntries (s.srcRead 0 4))) = u ∧ 0 = out := by
  simp [freqLoad, except_bind_ok, checkSrc_ok, raiseIf_ok, except_pure]

/-- TREE_BUILD succeeds (40_huffman_model.md R114). -/
theorem treeBuild_ok {s u : State} {out : Nat} : treeBuild s = .ok (u, out) ↔
    ¬ s.tables.ft = [] ∧
      s.setTables (s.tables.withTree (buildTree s.tables.ft)) = u ∧ 0 = out := by
  simp [treeBuild, except_bind_ok, raiseIf_ok, except_pure]

/-- CODE_GEN succeeds (40_huffman_model.md R116). -/
theorem codeGen_ok {s u : State} {out : Nat} : codeGen s = .ok (u, out) ↔
    s.tables.treeValid = true ∧ maxLen (buildCodes s.tables.tree) ≤ s.params.maxCodeLen ∧
      s.setTables (s.tables.withCodes (buildCodes s.tables.tree)) = u ∧ 0 = out := by
  simp [codeGen, except_bind_ok, raiseIf_ok, except_pure]

/-- HUFF_PACK succeeds (41_text_codec.md R141). -/
theorem huffPack_ok {s u : State} {out : Nat} : huffPack s = .ok (u, out) ↔
    srcInMemory s.params s.latched.regs = true ∧ dstInMemory s.params s.latched.regs = true ∧
      rangesOverlap s.latched.regs = false ∧ s.tables.ctValid = true ∧ ¬ s.len = 0 ∧
      s.len % 4 = 0 ∧ (∀ x ∈ s.symbols, ¬ symIndex s.tables.ft x = none) ∧
      (pack s.symbols s.tables.ft s.tables.ct).bytes.length ≤ s.cap ∧
      (s.storeBytes (pack s.symbols s.tables.ft s.tables.ct).bytes).setResult
        (s.result.withPack (pack s.symbols s.tables.ft s.tables.ct) (s.len / 4)) = u ∧ (pack s.symbols s.tables.ft s.tables.ct).bytes.length = out := by
  simp [huffPack, except_bind_ok, checkSrc_ok, checkDst_ok, raiseIf_ok, except_pure, and_assoc]

/-- The bit stream and the artifact of a text (41_text_codec.md R142). -/
def textPack (syms : List Word) : Packed :=
  pack syms (countFreq syms) (buildCodes (buildTree (countFreq syms)))

/-- TEXT_ENCODE succeeds (41_text_codec.md R142). -/
theorem textEncode_ok {s u : State} {out : Nat} : textEncode s = .ok (u, out) ↔
    srcInMemory s.params s.latched.regs = true ∧ dstInMemory s.params s.latched.regs = true ∧
      rangesOverlap s.latched.regs = false ∧ ¬ s.len = 0 ∧ s.len % 4 = 0 ∧
      (countFreq s.symbols).length ≤ s.params.maxSymbols ∧
      maxLen (buildCodes (buildTree (countFreq s.symbols))) ≤ s.params.maxCodeLen ∧
      (textArtifact (countFreq s.symbols) (textPack s.symbols)).length ≤ s.cap ∧
      ((s.storeBytes (textArtifact (countFreq s.symbols) (textPack s.symbols))).setTables
        { ft := countFreq s.symbols, tree := buildTree (countFreq s.symbols), treeValid := true
          ct := buildCodes (buildTree (countFreq s.symbols)), ctValid := true }).setResult
        (s.result.withPack (textPack s.symbols) (s.len / 4)) = u ∧ (textArtifact (countFreq s.symbols) (textPack s.symbols)).length = out := by
  simp [textEncode, textPack, except_bind_ok, checkSrc_ok, checkDst_ok, raiseIf_ok, except_pure, and_assoc]

/-- The artifact of an image encode (42_image_rle.md R161). -/
def State.imgOutput (s : State) : List Byte :=
  imgArtifact s.latched.regs.imgWidth.toNat s.latched.regs.imgHeight.toNat (rleImg s.pixels)

/-- IMG_ENCODE succeeds (42_image_rle.md R161). -/
theorem imgEncode_ok {s u : State} {out : Nat} : imgEncode s = .ok (u, out) ↔
    srcInMemory s.params s.latched.regs = true ∧ dstInMemory s.params s.latched.regs = true ∧
      rangesOverlap s.latched.regs = false ∧ ¬ s.len = 0 ∧ s.len % 3 = 0 ∧
      s.latched.regs.imgWidth.toNat * s.latched.regs.imgHeight.toNat = s.len / 3 ∧
      s.imgOutput.length ≤ s.cap ∧
      (s.storeBytes s.imgOutput).setResult
        (s.result.withRuns (rleImg s.pixels).length (s.len / 3)) = u ∧ s.imgOutput.length = out := by
  simp [imgEncode, State.imgOutput, except_bind_ok, checkSrc_ok, checkDst_ok, raiseIf_ok, except_pure, and_assoc]

/-- The parser accepts an image artifact (42_image_rle.md R162). -/
theorem parseImg_ok {s : State} {a : ParsedImage} : parseImg s = .ok a ↔
    12 ≤ s.len ∧ s.len = 12 + 4 * s.srcRead 8 4 ∧
      (∀ r ∈ s.imgRuns (s.srcRead 8 4), ¬ r.2 = 0) ∧
      runTotal (s.imgRuns (s.srcRead 8 4)) = s.srcRead 0 4 * s.srcRead 4 4 ∧
      { width := s.srcRead 0 4, height := s.srcRead 4 4, runs := s.imgRuns (s.srcRead 8 4) } =
        a := by
  simp only [parseImg, except_bind_ok, raiseIf_ok, except_pure, exists_const, decide_eq_false_iff_not,
    not_lt, List.any_eq_false, beq_iff_eq, bne_eq_false_iff_eq, Except.ok.injEq]
  constructor
  · rintro ⟨h1, h2, h3, h⟩; exact ⟨h1, by omega, h⟩
  · rintro ⟨h1, h2, h⟩; exact ⟨h1, by omega, by omega, h⟩

/-- IMG_DECODE succeeds (42_image_rle.md R163). -/
theorem imgDecode_ok {s u : State} {out : Nat} : imgDecode s = .ok (u, out) ↔
    srcInMemory s.params s.latched.regs = true ∧ dstInMemory s.params s.latched.regs = true ∧
      rangesOverlap s.latched.regs = false ∧ ∃ a, parseImg s = .ok a ∧
      3 * (a.width * a.height) ≤ s.cap ∧
      ((s.storeBytes ((expand a.runs).flatMap Pixel.bytes)).setRegs
        (s.regs.withImage a.width a.height)).setResult
        (s.result.withRuns a.runs.length (a.width * a.height)) = u ∧
      3 * (a.width * a.height) = out := by
  simp [imgDecode, except_bind_ok, checkSrc_ok, checkDst_ok, raiseIf_ok, except_pure, and_assoc]

/-- The buckets of the source samples (43_audio_rle.md R181). -/
def State.buckets (s : State) : List Int :=
  s.samples.map fun x => quantize x s.latched.regs.qstep.toNat s.latched.qfloor

/-- The artifact of an audio encode (43_audio_rle.md R181). -/
def State.audOutput (s : State) : List Byte :=
  audArtifact s.audioParams s.latched.regs.qstep.toNat (rleAud s.buckets)

/-- AUD_ENCODE succeeds (43_audio_rle.md R181). -/
theorem audEncode_ok {s u : State} {out : Nat} : audEncode s = .ok (u, out) ↔
    srcInMemory s.params s.latched.regs = true ∧ dstInMemory s.params s.latched.regs = true ∧
      rangesOverlap s.latched.regs = false ∧ ¬ s.len = 0 ∧ s.len % 2 = 0 ∧
      ¬ s.latched.regs.qstep.toNat = 0 ∧ s.latched.regs.qstep.toNat ≤ 0x7FFFFFFF ∧
      ¬ s.audioParams.channels = 0 ∧
      s.audioParams.frames * s.audioParams.channels = s.len / 2 ∧ s.audOutput.length ≤ s.cap ∧
      (s.storeBytes s.audOutput).setResult
        (s.result.withRuns (rleAud s.buckets).length (s.len / 2)) = u ∧
      s.audOutput.length = out := by
  simp only [audEncode, State.audOutput, State.buckets, except_bind_ok, checkSrc_ok, checkDst_ok,
    raiseIf_ok, except_pure, exists_const, beq_eq_false_iff_ne, ne_eq, bne_eq_false_iff_eq,
    Bool.or_eq_false_iff, decide_eq_false_iff_not, not_lt, Except.ok.injEq, Prod.mk.injEq, and_assoc]

/-- The parser accepts an audio artifact (43_audio_rle.md R184). -/
theorem parseAud_ok {s : State} {a : ParsedAudio} : parseAud s = .ok a ↔
    20 ≤ s.len ∧ s.len = 20 + 8 * s.srcRead 16 4 ∧
      (∀ r ∈ s.audRuns (s.srcRead 16 4), ¬ r.2 = 0) ∧
      runTotal (s.audRuns (s.srcRead 16 4)) = s.srcRead 8 4 * s.srcRead 0 2 ∧
      { params := { channels := s.srcRead 0 2, swidth := s.srcRead 2 2, rate := s.srcRead 4 4
                    frames := s.srcRead 8 4 }
        qstep := s.srcRead 12 4, runs := s.audRuns (s.srcRead 16 4) } = a := by
  simp only [parseAud, except_bind_ok, raiseIf_ok, except_pure, exists_const, decide_eq_false_iff_not,
    not_lt, List.any_eq_false, beq_iff_eq, bne_eq_false_iff_eq, Except.ok.injEq]
  constructor
  · rintro ⟨h1, h2, h3, h⟩; exact ⟨h1, by omega, h⟩
  · rintro ⟨h1, h2, h⟩; exact ⟨h1, by omega, by omega, h⟩

/-- AUD_DECODE succeeds (43_audio_rle.md R185). -/
theorem audDecode_ok {s u : State} {out : Nat} : audDecode s = .ok (u, out) ↔
    srcInMemory s.params s.latched.regs = true ∧ dstInMemory s.params s.latched.regs = true ∧
      rangesOverlap s.latched.regs = false ∧ ∃ a, parseAud s = .ok a ∧
      2 * (a.params.frames * a.params.channels) ≤ s.cap ∧
      (((s.storeBytes
        ((expand (a.runs.map fun r => (clamp16 r.1, r.2))).flatMap sampleBytes)).setRegs
        (s.regs.withAudio a.params)).setResult
        (s.result.withRuns a.runs.length (a.params.frames * a.params.channels))).setSat
        (a.runs.any fun r => outOfRange r.1) = u ∧
      2 * (a.params.frames * a.params.channels) = out := by
  simp only [audDecode, except_bind_ok, checkSrc_ok, checkDst_ok, raiseIf_ok, except_pure,
    exists_const, decide_eq_false_iff_not, not_lt, Except.ok.injEq, Prod.mk.injEq, and_assoc]

/-- CLEAR_TABLES always succeeds (40_huffman_model.md R119). -/
theorem clearTables_ok {s u : State} {out : Nat} : clearTables s = .ok (u, out) ↔
    s.setTables (s.tables.withFreq []) = u ∧ 0 = out := by
  simp [clearTables]

end Sys2Proof.Machine
end

