-- ==== Sys2Proof/Laws/Memory.lean ====
section
/-! SUPPORT. Buffer memory: a read after a write, and that every memory operation keeps the canonical
form. -/

namespace Sys2Proof.Machine

/-! ### Reading after writing -/

/-- Another address keeps its listed byte. -/
theorem findCell_putCell_ne (cs : List Host.Cell) {a a' : Nat} (b : Byte) (h : a' ≠ a) :
    findCell (putCell cs a b) a' = findCell cs a' := by
  induction cs with
  | nil => simp [putCell, findCell, h.symm]
  | cons c cs ih =>
    unfold putCell
    split
    · simp [findCell, h.symm]
    · split
      · rename_i h2; subst h2; simp [findCell, h.symm]
      · simp [findCell, ih]

/-- The written address lists the written byte. -/
theorem findCell_putCell_self (cs : List Host.Cell) (a : Nat) (b : Byte) :
    findCell (putCell cs a b) a = some b := by
  induction cs with
  | nil => simp [putCell, findCell]
  | cons c cs ih =>
    unfold putCell
    split
    · simp [findCell]
    · split
      · simp [findCell]
      · rename_i h; simp [findCell, Ne.symm h, ih]

@[simp] theorem Memory.read_write_self (m : Memory) (a : Nat) (b : Byte) :
    (m.write a b).read a = b := by
  simp [Memory.read, Memory.write, findCell_putCell_self]

theorem Memory.read_write_ne (m : Memory) {a a' : Nat} (b : Byte) (h : a' ≠ a) :
    (m.write a b).read a' = m.read a' := by
  simp [Memory.read, Memory.write, findCell_putCell_ne _ _ h]

/-- The basic law of memory (20_memory.md R60), for any list of cells. -/
theorem Memory.read_write (m : Memory) (a a' : Nat) (b : Byte) :
    (m.write a b).read a' = if a' = a then b else m.read a' := by
  by_cases h : a' = a
  · simp [h]
  · simp [h, Memory.read_write_ne m b h]

@[simp] theorem Memory.writeBytes_nil (m : Memory) (a : Nat) : m.writeBytes a [] = m := rfl

theorem Memory.writeBytes_cons (m : Memory) (a : Nat) (b : Byte) (bs : List Byte) :
    m.writeBytes a (b :: bs) = (m.write a b).writeBytes (a + 1) bs := rfl

theorem Memory.writeBytes_append (m : Memory) (a : Nat) (bs cs : List Byte) :
    m.writeBytes a (bs ++ cs) = (m.writeBytes a bs).writeBytes (a + bs.length) cs := by
  induction bs generalizing m a with
  | nil => simp
  | cons b bs ih =>
    simp only [List.cons_append, Memory.writeBytes_cons, ih, List.length_cons]
    congr 1; omega

/-- A byte outside the written range keeps its value (20_memory.md R67). -/
theorem Memory.read_writeBytes_outside (m : Memory) {a a' : Nat} {bs : List Byte}
    (h : a' < a ∨ a + bs.length ≤ a') : (m.writeBytes a bs).read a' = m.read a' := by
  induction bs generalizing m a with
  | nil => rfl
  | cons b bs ih =>
    simp only [List.length_cons] at h
    rw [Memory.writeBytes_cons, ih _ (by omega), Memory.read_write_ne _ _ (by omega)]

/-- A byte inside the written range takes the byte written there. -/
theorem Memory.read_writeBytes_inside (m : Memory) {a i : Nat} {bs : List Byte} {b : Byte}
    (h : bs[i]? = some b) : (m.writeBytes a bs).read (a + i) = b := by
  induction bs generalizing m a i with
  | nil => simp at h
  | cons c bs ih =>
    rw [Memory.writeBytes_cons]
    cases i with
    | zero =>
      obtain rfl : c = b := by simpa using h
      rw [Memory.read_writeBytes_outside _ (.inl (by omega))]; simp
    | succ i =>
      have := ih (m.write a c) (a := a + 1) (i := i) (by simpa using h)
      rwa [show a + 1 + i = a + (i + 1) by omega] at this

/-- What is written reads back as a range. -/
theorem Memory.bytes_writeBytes (m : Memory) (a : Nat) (bs : List Byte) :
    (m.writeBytes a bs).bytes a bs.length = bs := by
  apply List.ext_getElem?
  intro i
  by_cases h : i < bs.length
  · simp [Memory.bytes, h, Memory.read_writeBytes_inside m (List.getElem?_eq_getElem h)]
  · simp [Memory.bytes, h]

@[simp] theorem Memory.length_bytes (m : Memory) (a n : Nat) : (m.bytes a n).length = n := by
  simp [Memory.bytes]

/-- A range reads the same in memories that agree on it. -/
theorem Memory.bytes_congr {m m' : Memory} {a n : Nat}
    (h : ∀ i, i < n → m.read (a + i) = m'.read (a + i)) : m.bytes a n = m'.bytes a n := by
  simp only [Memory.bytes]
  exact List.map_congr_left fun i hi => h i (List.mem_range.mp hi)

/-- A number reads the same in memories that agree on its bytes. -/
theorem Memory.readBE_congr {m m' : Memory} {a n : Nat}
    (h : ∀ i, i < n → m.read (a + i) = m'.read (a + i)) : m.readBE a n = m'.readBE a n := by
  simp [Memory.readBE, Memory.bytes_congr h]

/-! ### The canonical form -/

/-- Every address of `cs` is at least `a`. -/
def cellsFrom (a : Nat) (cs : List Host.Cell) : Prop := ∀ c ∈ cs, a ≤ c.1

theorem risingCells_cons_iff (c : Host.Cell) (cs : List Host.Cell) :
    risingCells (c :: cs) = true ↔ cellsFrom (c.1 + 1) cs ∧ risingCells cs = true := by
  induction cs generalizing c with
  | nil => simp [risingCells, cellsFrom]
  | cons d ds ih =>
    have hd := ih d
    constructor
    · intro h
      simp only [risingCells, Bool.and_eq_true, decide_eq_true_eq] at h
      have h2 : risingCells (d :: ds) = true := by simp [risingCells, h.2]
      refine ⟨fun e he => ?_, h2⟩
      rcases List.mem_cons.mp he with rfl | he
      · exact h.1
      · have := (hd.mp h2).1 e he; have := h.1; omega
    · rintro ⟨h1, h2⟩
      have h3 := h1 d (by simp)
      unfold risingCells
      simp only [Bool.and_eq_true, decide_eq_true_eq]
      exact ⟨by omega, h2⟩

theorem cellsFrom_putCell {lo a : Nat} {cs : List Host.Cell} (b : Byte) (h : cellsFrom lo cs)
    (ha : lo ≤ a) : cellsFrom lo (putCell cs a b) := by
  induction cs with
  | nil => intro c hc; simp [putCell] at hc; simpa [hc] using ha
  | cons c cs ih =>
    have hc := h c (by simp)
    have hcs : cellsFrom lo cs := fun e he => h e (by simp [he])
    unfold putCell
    split
    · intro e he
      rcases List.mem_cons.mp he with rfl | he
      · exact ha
      · exact h e he
    · split
      · intro e he
        rcases List.mem_cons.mp he with rfl | he
        · exact ha
        · exact hcs e he
      · intro e he
        rcases List.mem_cons.mp he with rfl | he
        · exact hc
        · exact ih hcs e he

theorem risingCells_putCell {cs : List Host.Cell} (a : Nat) (b : Byte)
    (h : risingCells cs = true) : risingCells (putCell cs a b) = true := by
  induction cs with
  | nil => rfl
  | cons c cs ih =>
    obtain ⟨h1, h2⟩ := (risingCells_cons_iff c cs).mp h
    unfold putCell
    split
    · rename_i hlt
      refine (risingCells_cons_iff _ _).mpr ⟨fun e he => ?_, h⟩
      rcases List.mem_cons.mp he with rfl | he
      · exact hlt
      · have := h1 e he; simp only; omega
    · split
      · rename_i heq
        refine (risingCells_cons_iff _ _).mpr ⟨fun e he => ?_, h2⟩
        have := h1 e he; simp only; omega
      · exact (risingCells_cons_iff _ _).mpr ⟨cellsFrom_putCell b h1 (by omega), ih h2⟩

theorem Memory.write_wf {m : Memory} (a : Nat) (b : Byte) (h : m.wf = true) :
    (m.write a b).wf = true := risingCells_putCell a b h

theorem Memory.writeBytes_wf {m : Memory} (a : Nat) (bs : List Byte) (h : m.wf = true) :
    (m.writeBytes a bs).wf = true := by
  induction bs generalizing m a with
  | nil => exact h
  | cons b bs ih => exact ih (a + 1) (Memory.write_wf a b h)

theorem Memory.scramble_wf {m : Memory} (n : Nat) (as : List Nat) (h : m.wf = true) :
    (m.scramble n as).wf = true := by
  induction as generalizing m n with
  | nil => exact h
  | cons a as ih => exact ih (n + 1) (Memory.write_wf a _ h)

theorem State.reset_mem_wf : State.reset.mem.wf = true := rfl

/-! ### Which addresses are listed -/

theorem mem_putCell {cs : List Host.Cell} {a : Nat} {b : Byte} {c : Host.Cell}
    (h : c ∈ putCell cs a b) : c = (a, b) ∨ c ∈ cs := by
  induction cs with
  | nil => left; simpa [putCell] using h
  | cons d ds ih =>
    unfold putCell at h
    split at h
    · rcases List.mem_cons.mp h with h | h
      · exact .inl h
      · exact .inr h
    · split at h
      · rcases List.mem_cons.mp h with h | h
        · exact .inl h
        · exact .inr (by simp [h])
      · rcases List.mem_cons.mp h with h | h
        · exact .inr (by simp [h])
        · rcases ih h with h | h
          · exact .inl h
          · exact .inr (by simp [h])

/-- `P` holds of every listed address. -/
def Memory.Listed (m : Memory) (P : Nat → Prop) : Prop := ∀ c ∈ m.cells, P c.1

theorem Memory.listed_write {m : Memory} {P : Nat → Prop} {a : Nat} (b : Byte)
    (h : m.Listed P) (ha : P a) : (m.write a b).Listed P := by
  intro c hc
  rcases mem_putCell hc with rfl | hc
  · exact ha
  · exact h c hc

theorem Memory.listed_writeBytes {m : Memory} {P : Nat → Prop} {a : Nat} {bs : List Byte}
    (h : m.Listed P) (ha : ∀ i, i < bs.length → P (a + i)) : (m.writeBytes a bs).Listed P := by
  induction bs generalizing m a with
  | nil => exact h
  | cons b bs ih =>
    refine ih (m := m.write a b) (a := a + 1) (listed_write b h (by simpa using ha 0 (by simp))) ?_
    intro i hi
    have := ha (i + 1) (by simpa using hi)
    rwa [show a + (i + 1) = a + 1 + i by omega] at this

theorem Memory.listed_scramble {m : Memory} {P : Nat → Prop} {n : Nat} {as : List Nat}
    (h : m.Listed P) (ha : ∀ a ∈ as, P a) : (m.scramble n as).Listed P := by
  induction as generalizing m n with
  | nil => exact h
  | cons a as ih =>
    exact ih (m := m.write a _) (n := n + 1) (listed_write _ h (ha a (by simp)))
      fun x hx => ha x (by simp [hx])

/-- A byte that a reset does not scramble keeps its value (70_reset_and_hazards.md R241). -/
theorem Memory.read_scramble_outside {m : Memory} {n a : Nat} {as : List Nat} (h : a ∉ as) :
    (m.scramble n as).read a = m.read a := by
  induction as generalizing m n with
  | nil => rfl
  | cons b bs ih =>
    simp only [List.mem_cons, not_or] at h
    rw [Memory.scramble, ih h.2, Memory.read_write_ne _ _ h.1]

end Sys2Proof.Machine
end

