-- ==== Sys2Proof/Laws/PerInstr.lean ====
section
/-! SUPPORT. One family of statements per command, about the command as syntax. -/

namespace Sys2Proof.Laws.WordFields

open Sys2Proof

/-- The fields of a command's word: MBZ is zero, OP is the opcode, the word passes the word check,
and the command is well formed (30_encoding.md R80, R82, R85). -/
def Statement (i : Instr) : Prop :=
  mbzField (encode i) = 0#24 ∧ opField (encode i) = opcode i ∧ WordWf.legal (encode i) = true ∧
    i.wf = true

theorem nop : Statement .nop := by unfold Statement; decide
theorem freqCount : Statement .freqCount := by unfold Statement; decide
theorem freqLoad : Statement .freqLoad := by unfold Statement; decide
theorem treeBuild : Statement .treeBuild := by unfold Statement; decide
theorem codeGen : Statement .codeGen := by unfold Statement; decide
theorem huffPack : Statement .huffPack := by unfold Statement; decide
theorem textEncode : Statement .textEncode := by unfold Statement; decide
theorem imgEncode : Statement .imgEncode := by unfold Statement; decide
theorem imgDecode : Statement .imgDecode := by unfold Statement; decide
theorem audEncode : Statement .audEncode := by unfold Statement; decide
theorem audDecode : Statement .audDecode := by unfold Statement; decide
theorem clearTables : Statement .clearTables := by unfold Statement; decide

end Sys2Proof.Laws.WordFields
end

