-- ==== Sys2Proof/Laws/State.lean ====
section
/-! SUPPORT. The field lemmas of the state updates: one per field per update, so that no proof unfolds
a record update. -/

namespace Sys2Proof.Machine

/-! ### `State.accept` -/

@[simp] theorem State.accept_params (s : State) (w : Word) : (s.accept w).params = s.params := rfl
@[simp] theorem State.accept_cmd (s : State) (w : Word) : (s.accept w).cmd = w := rfl
@[simp] theorem State.accept_status (s : State) (w : Word) : (s.accept w).status = { s.status with done := false, sat := false, err := .none } := rfl
@[simp] theorem State.accept_ctrl (s : State) (w : Word) : (s.accept w).ctrl = s.ctrl := rfl
@[simp] theorem State.accept_regs (s : State) (w : Word) : (s.accept w).regs = s.regs := rfl
@[simp] theorem State.accept_outLen (s : State) (w : Word) : (s.accept w).outLen = s.outLen := rfl
@[simp] theorem State.accept_result (s : State) (w : Word) : (s.accept w).result = s.result := rfl
@[simp] theorem State.accept_tblIndex (s : State) (w : Word) : (s.accept w).tblIndex = s.tblIndex := rfl
@[simp] theorem State.accept_nodeIndex (s : State) (w : Word) : (s.accept w).nodeIndex = s.nodeIndex := rfl
@[simp] theorem State.accept_tables (s : State) (w : Word) : (s.accept w).tables = s.tables := rfl
@[simp] theorem State.accept_seq (s : State) (w : Word) : (s.accept w).seq = .busy { word := w, latched := s.snapshot } := rfl
@[simp] theorem State.accept_mem (s : State) (w : Word) : (s.accept w).mem = s.mem := rfl
@[simp] theorem State.accept_agenda (s : State) (w : Word) : (s.accept w).agenda = s.agenda := rfl
@[simp] theorem State.accept_response (s : State) (w : Word) : (s.accept w).response = s.response := rfl
@[simp] theorem State.accept_draws (s : State) (w : Word) : (s.accept w).draws = s.draws := rfl

/-! ### `State.succeeded` -/

@[simp] theorem State.succeeded_params (s : State) (out : Nat) : (s.succeeded out).params = s.params := rfl
@[simp] theorem State.succeeded_cmd (s : State) (out : Nat) : (s.succeeded out).cmd = s.cmd := rfl
@[simp] theorem State.succeeded_status (s : State) (out : Nat) : (s.succeeded out).status = { s.status with done := true, err := .none } := rfl
@[simp] theorem State.succeeded_ctrl (s : State) (out : Nat) : (s.succeeded out).ctrl = s.ctrl := rfl
@[simp] theorem State.succeeded_regs (s : State) (out : Nat) : (s.succeeded out).regs = s.regs := rfl
@[simp] theorem State.succeeded_outLen (s : State) (out : Nat) : (s.succeeded out).outLen = BitVec.ofNat 32 out := rfl
@[simp] theorem State.succeeded_result (s : State) (out : Nat) : (s.succeeded out).result = s.result := rfl
@[simp] theorem State.succeeded_tblIndex (s : State) (out : Nat) : (s.succeeded out).tblIndex = s.tblIndex := rfl
@[simp] theorem State.succeeded_nodeIndex (s : State) (out : Nat) : (s.succeeded out).nodeIndex = s.nodeIndex := rfl
@[simp] theorem State.succeeded_tables (s : State) (out : Nat) : (s.succeeded out).tables = s.tables := rfl
@[simp] theorem State.succeeded_seq (s : State) (out : Nat) : (s.succeeded out).seq = .idle := rfl
@[simp] theorem State.succeeded_mem (s : State) (out : Nat) : (s.succeeded out).mem = s.mem := rfl
@[simp] theorem State.succeeded_agenda (s : State) (out : Nat) : (s.succeeded out).agenda = s.agenda := rfl
@[simp] theorem State.succeeded_response (s : State) (out : Nat) : (s.succeeded out).response = s.response := rfl
@[simp] theorem State.succeeded_draws (s : State) (out : Nat) : (s.succeeded out).draws = s.draws := rfl

/-! ### `State.failed` -/

@[simp] theorem State.failed_params (s : State) (e : ErrCode) : (s.failed e).params = s.params := rfl
@[simp] theorem State.failed_cmd (s : State) (e : ErrCode) : (s.failed e).cmd = s.cmd := rfl
@[simp] theorem State.failed_status (s : State) (e : ErrCode) : (s.failed e).status = { s.status with done := true, err := e } := rfl
@[simp] theorem State.failed_ctrl (s : State) (e : ErrCode) : (s.failed e).ctrl = s.ctrl := rfl
@[simp] theorem State.failed_regs (s : State) (e : ErrCode) : (s.failed e).regs = s.regs := rfl
@[simp] theorem State.failed_outLen (s : State) (e : ErrCode) : (s.failed e).outLen = 0 := rfl
@[simp] theorem State.failed_result (s : State) (e : ErrCode) : (s.failed e).result = s.result := rfl
@[simp] theorem State.failed_tblIndex (s : State) (e : ErrCode) : (s.failed e).tblIndex = s.tblIndex := rfl
@[simp] theorem State.failed_nodeIndex (s : State) (e : ErrCode) : (s.failed e).nodeIndex = s.nodeIndex := rfl
@[simp] theorem State.failed_tables (s : State) (e : ErrCode) : (s.failed e).tables = s.tables := rfl
@[simp] theorem State.failed_seq (s : State) (e : ErrCode) : (s.failed e).seq = .idle := rfl
@[simp] theorem State.failed_mem (s : State) (e : ErrCode) : (s.failed e).mem = s.mem := rfl
@[simp] theorem State.failed_agenda (s : State) (e : ErrCode) : (s.failed e).agenda = s.agenda := rfl
@[simp] theorem State.failed_response (s : State) (e : ErrCode) : (s.failed e).response = s.response := rfl
@[simp] theorem State.failed_draws (s : State) (e : ErrCode) : (s.failed e).draws = s.draws := rfl

/-! ### `State.storeBytes` -/

@[simp] theorem State.storeBytes_params (s : State) (bs : List Byte) : (s.storeBytes bs).params = s.params := rfl
@[simp] theorem State.storeBytes_cmd (s : State) (bs : List Byte) : (s.storeBytes bs).cmd = s.cmd := rfl
@[simp] theorem State.storeBytes_status (s : State) (bs : List Byte) : (s.storeBytes bs).status = s.status := rfl
@[simp] theorem State.storeBytes_ctrl (s : State) (bs : List Byte) : (s.storeBytes bs).ctrl = s.ctrl := rfl
@[simp] theorem State.storeBytes_regs (s : State) (bs : List Byte) : (s.storeBytes bs).regs = s.regs := rfl
@[simp] theorem State.storeBytes_outLen (s : State) (bs : List Byte) : (s.storeBytes bs).outLen = s.outLen := rfl
@[simp] theorem State.storeBytes_result (s : State) (bs : List Byte) : (s.storeBytes bs).result = s.result := rfl
@[simp] theorem State.storeBytes_tblIndex (s : State) (bs : List Byte) : (s.storeBytes bs).tblIndex = s.tblIndex := rfl
@[simp] theorem State.storeBytes_nodeIndex (s : State) (bs : List Byte) : (s.storeBytes bs).nodeIndex = s.nodeIndex := rfl
@[simp] theorem State.storeBytes_tables (s : State) (bs : List Byte) : (s.storeBytes bs).tables = s.tables := rfl
@[simp] theorem State.storeBytes_seq (s : State) (bs : List Byte) : (s.storeBytes bs).seq = s.seq := rfl
@[simp] theorem State.storeBytes_mem (s : State) (bs : List Byte) : (s.storeBytes bs).mem = s.mem.writeBytes s.latched.regs.dstAddr.toNat bs := rfl
@[simp] theorem State.storeBytes_agenda (s : State) (bs : List Byte) : (s.storeBytes bs).agenda = s.agenda := rfl
@[simp] theorem State.storeBytes_response (s : State) (bs : List Byte) : (s.storeBytes bs).response = s.response := rfl
@[simp] theorem State.storeBytes_draws (s : State) (bs : List Byte) : (s.storeBytes bs).draws = s.draws := rfl

/-! ### `State.setTables` -/

@[simp] theorem State.setTables_params (s : State) (t : Tables) : (s.setTables t).params = s.params := rfl
@[simp] theorem State.setTables_cmd (s : State) (t : Tables) : (s.setTables t).cmd = s.cmd := rfl
@[simp] theorem State.setTables_status (s : State) (t : Tables) : (s.setTables t).status = s.status := rfl
@[simp] theorem State.setTables_ctrl (s : State) (t : Tables) : (s.setTables t).ctrl = s.ctrl := rfl
@[simp] theorem State.setTables_regs (s : State) (t : Tables) : (s.setTables t).regs = s.regs := rfl
@[simp] theorem State.setTables_outLen (s : State) (t : Tables) : (s.setTables t).outLen = s.outLen := rfl
@[simp] theorem State.setTables_result (s : State) (t : Tables) : (s.setTables t).result = s.result := rfl
@[simp] theorem State.setTables_tblIndex (s : State) (t : Tables) : (s.setTables t).tblIndex = s.tblIndex := rfl
@[simp] theorem State.setTables_nodeIndex (s : State) (t : Tables) : (s.setTables t).nodeIndex = s.nodeIndex := rfl
@[simp] theorem State.setTables_tables (s : State) (t : Tables) : (s.setTables t).tables = t := rfl
@[simp] theorem State.setTables_seq (s : State) (t : Tables) : (s.setTables t).seq = s.seq := rfl
@[simp] theorem State.setTables_mem (s : State) (t : Tables) : (s.setTables t).mem = s.mem := rfl
@[simp] theorem State.setTables_agenda (s : State) (t : Tables) : (s.setTables t).agenda = s.agenda := rfl
@[simp] theorem State.setTables_response (s : State) (t : Tables) : (s.setTables t).response = s.response := rfl
@[simp] theorem State.setTables_draws (s : State) (t : Tables) : (s.setTables t).draws = s.draws := rfl

/-! ### `State.setResult` -/

@[simp] theorem State.setResult_params (s : State) (r : ResultRegs) : (s.setResult r).params = s.params := rfl
@[simp] theorem State.setResult_cmd (s : State) (r : ResultRegs) : (s.setResult r).cmd = s.cmd := rfl
@[simp] theorem State.setResult_status (s : State) (r : ResultRegs) : (s.setResult r).status = s.status := rfl
@[simp] theorem State.setResult_ctrl (s : State) (r : ResultRegs) : (s.setResult r).ctrl = s.ctrl := rfl
@[simp] theorem State.setResult_regs (s : State) (r : ResultRegs) : (s.setResult r).regs = s.regs := rfl
@[simp] theorem State.setResult_outLen (s : State) (r : ResultRegs) : (s.setResult r).outLen = s.outLen := rfl
@[simp] theorem State.setResult_result (s : State) (r : ResultRegs) : (s.setResult r).result = r := rfl
@[simp] theorem State.setResult_tblIndex (s : State) (r : ResultRegs) : (s.setResult r).tblIndex = s.tblIndex := rfl
@[simp] theorem State.setResult_nodeIndex (s : State) (r : ResultRegs) : (s.setResult r).nodeIndex = s.nodeIndex := rfl
@[simp] theorem State.setResult_tables (s : State) (r : ResultRegs) : (s.setResult r).tables = s.tables := rfl
@[simp] theorem State.setResult_seq (s : State) (r : ResultRegs) : (s.setResult r).seq = s.seq := rfl
@[simp] theorem State.setResult_mem (s : State) (r : ResultRegs) : (s.setResult r).mem = s.mem := rfl
@[simp] theorem State.setResult_agenda (s : State) (r : ResultRegs) : (s.setResult r).agenda = s.agenda := rfl
@[simp] theorem State.setResult_response (s : State) (r : ResultRegs) : (s.setResult r).response = s.response := rfl
@[simp] theorem State.setResult_draws (s : State) (r : ResultRegs) : (s.setResult r).draws = s.draws := rfl

/-! ### `State.setRegs` -/

@[simp] theorem State.setRegs_params (s : State) (r : OperandRegs) : (s.setRegs r).params = s.params := rfl
@[simp] theorem State.setRegs_cmd (s : State) (r : OperandRegs) : (s.setRegs r).cmd = s.cmd := rfl
@[simp] theorem State.setRegs_status (s : State) (r : OperandRegs) : (s.setRegs r).status = s.status := rfl
@[simp] theorem State.setRegs_ctrl (s : State) (r : OperandRegs) : (s.setRegs r).ctrl = s.ctrl := rfl
@[simp] theorem State.setRegs_regs (s : State) (r : OperandRegs) : (s.setRegs r).regs = r := rfl
@[simp] theorem State.setRegs_outLen (s : State) (r : OperandRegs) : (s.setRegs r).outLen = s.outLen := rfl
@[simp] theorem State.setRegs_result (s : State) (r : OperandRegs) : (s.setRegs r).result = s.result := rfl
@[simp] theorem State.setRegs_tblIndex (s : State) (r : OperandRegs) : (s.setRegs r).tblIndex = s.tblIndex := rfl
@[simp] theorem State.setRegs_nodeIndex (s : State) (r : OperandRegs) : (s.setRegs r).nodeIndex = s.nodeIndex := rfl
@[simp] theorem State.setRegs_tables (s : State) (r : OperandRegs) : (s.setRegs r).tables = s.tables := rfl
@[simp] theorem State.setRegs_seq (s : State) (r : OperandRegs) : (s.setRegs r).seq = s.seq := rfl
@[simp] theorem State.setRegs_mem (s : State) (r : OperandRegs) : (s.setRegs r).mem = s.mem := rfl
@[simp] theorem State.setRegs_agenda (s : State) (r : OperandRegs) : (s.setRegs r).agenda = s.agenda := rfl
@[simp] theorem State.setRegs_response (s : State) (r : OperandRegs) : (s.setRegs r).response = s.response := rfl
@[simp] theorem State.setRegs_draws (s : State) (r : OperandRegs) : (s.setRegs r).draws = s.draws := rfl

/-! ### `State.setSat` -/

@[simp] theorem State.setSat_params (s : State) (b : Bool) : (s.setSat b).params = s.params := rfl
@[simp] theorem State.setSat_cmd (s : State) (b : Bool) : (s.setSat b).cmd = s.cmd := rfl
@[simp] theorem State.setSat_status (s : State) (b : Bool) : (s.setSat b).status = { s.status with sat := b } := rfl
@[simp] theorem State.setSat_ctrl (s : State) (b : Bool) : (s.setSat b).ctrl = s.ctrl := rfl
@[simp] theorem State.setSat_regs (s : State) (b : Bool) : (s.setSat b).regs = s.regs := rfl
@[simp] theorem State.setSat_outLen (s : State) (b : Bool) : (s.setSat b).outLen = s.outLen := rfl
@[simp] theorem State.setSat_result (s : State) (b : Bool) : (s.setSat b).result = s.result := rfl
@[simp] theorem State.setSat_tblIndex (s : State) (b : Bool) : (s.setSat b).tblIndex = s.tblIndex := rfl
@[simp] theorem State.setSat_nodeIndex (s : State) (b : Bool) : (s.setSat b).nodeIndex = s.nodeIndex := rfl
@[simp] theorem State.setSat_tables (s : State) (b : Bool) : (s.setSat b).tables = s.tables := rfl
@[simp] theorem State.setSat_seq (s : State) (b : Bool) : (s.setSat b).seq = s.seq := rfl
@[simp] theorem State.setSat_mem (s : State) (b : Bool) : (s.setSat b).mem = s.mem := rfl
@[simp] theorem State.setSat_agenda (s : State) (b : Bool) : (s.setSat b).agenda = s.agenda := rfl
@[simp] theorem State.setSat_response (s : State) (b : Bool) : (s.setSat b).response = s.response := rfl
@[simp] theorem State.setSat_draws (s : State) (b : Bool) : (s.setSat b).draws = s.draws := rfl

/-! ### `State.drawWord` -/

@[simp] theorem State.drawWord_params (s : State) : s.drawWord.params = s.params := rfl
@[simp] theorem State.drawWord_cmd (s : State) : s.drawWord.cmd = s.cmd := rfl
@[simp] theorem State.drawWord_status (s : State) : s.drawWord.status = s.status := rfl
@[simp] theorem State.drawWord_ctrl (s : State) : s.drawWord.ctrl = s.ctrl := rfl
@[simp] theorem State.drawWord_regs (s : State) : s.drawWord.regs = s.regs := rfl
@[simp] theorem State.drawWord_outLen (s : State) : s.drawWord.outLen = s.outLen := rfl
@[simp] theorem State.drawWord_result (s : State) : s.drawWord.result = s.result := rfl
@[simp] theorem State.drawWord_tblIndex (s : State) : s.drawWord.tblIndex = s.tblIndex := rfl
@[simp] theorem State.drawWord_nodeIndex (s : State) : s.drawWord.nodeIndex = s.nodeIndex := rfl
@[simp] theorem State.drawWord_tables (s : State) : s.drawWord.tables = s.tables := rfl
@[simp] theorem State.drawWord_seq (s : State) : s.drawWord.seq = s.seq := rfl
@[simp] theorem State.drawWord_mem (s : State) : s.drawWord.mem = s.mem := rfl
@[simp] theorem State.drawWord_agenda (s : State) : s.drawWord.agenda = s.agenda := rfl
@[simp] theorem State.drawWord_response (s : State) : s.drawWord.response = .word (Config.freeWord s.draws) := rfl
@[simp] theorem State.drawWord_draws (s : State) : s.drawWord.draws = s.draws + 1 := rfl

/-! ### `State.drawByte` -/

@[simp] theorem State.drawByte_params (s : State) : s.drawByte.params = s.params := rfl
@[simp] theorem State.drawByte_cmd (s : State) : s.drawByte.cmd = s.cmd := rfl
@[simp] theorem State.drawByte_status (s : State) : s.drawByte.status = s.status := rfl
@[simp] theorem State.drawByte_ctrl (s : State) : s.drawByte.ctrl = s.ctrl := rfl
@[simp] theorem State.drawByte_regs (s : State) : s.drawByte.regs = s.regs := rfl
@[simp] theorem State.drawByte_outLen (s : State) : s.drawByte.outLen = s.outLen := rfl
@[simp] theorem State.drawByte_result (s : State) : s.drawByte.result = s.result := rfl
@[simp] theorem State.drawByte_tblIndex (s : State) : s.drawByte.tblIndex = s.tblIndex := rfl
@[simp] theorem State.drawByte_nodeIndex (s : State) : s.drawByte.nodeIndex = s.nodeIndex := rfl
@[simp] theorem State.drawByte_tables (s : State) : s.drawByte.tables = s.tables := rfl
@[simp] theorem State.drawByte_seq (s : State) : s.drawByte.seq = s.seq := rfl
@[simp] theorem State.drawByte_mem (s : State) : s.drawByte.mem = s.mem := rfl
@[simp] theorem State.drawByte_agenda (s : State) : s.drawByte.agenda = s.agenda := rfl
@[simp] theorem State.drawByte_response (s : State) : s.drawByte.response = .byte (Config.freeByte s.draws) := rfl
@[simp] theorem State.drawByte_draws (s : State) : s.drawByte.draws = s.draws + 1 := rfl

/-! ### `State.respond` -/

@[simp] theorem State.respond_params (s : State) (r : Response) : (s.respond r).params = s.params := rfl
@[simp] theorem State.respond_cmd (s : State) (r : Response) : (s.respond r).cmd = s.cmd := rfl
@[simp] theorem State.respond_status (s : State) (r : Response) : (s.respond r).status = s.status := rfl
@[simp] theorem State.respond_ctrl (s : State) (r : Response) : (s.respond r).ctrl = s.ctrl := rfl
@[simp] theorem State.respond_regs (s : State) (r : Response) : (s.respond r).regs = s.regs := rfl
@[simp] theorem State.respond_outLen (s : State) (r : Response) : (s.respond r).outLen = s.outLen := rfl
@[simp] theorem State.respond_result (s : State) (r : Response) : (s.respond r).result = s.result := rfl
@[simp] theorem State.respond_tblIndex (s : State) (r : Response) : (s.respond r).tblIndex = s.tblIndex := rfl
@[simp] theorem State.respond_nodeIndex (s : State) (r : Response) : (s.respond r).nodeIndex = s.nodeIndex := rfl
@[simp] theorem State.respond_tables (s : State) (r : Response) : (s.respond r).tables = s.tables := rfl
@[simp] theorem State.respond_seq (s : State) (r : Response) : (s.respond r).seq = s.seq := rfl
@[simp] theorem State.respond_mem (s : State) (r : Response) : (s.respond r).mem = s.mem := rfl
@[simp] theorem State.respond_agenda (s : State) (r : Response) : (s.respond r).agenda = s.agenda := rfl
@[simp] theorem State.respond_response (s : State) (r : Response) : (s.respond r).response = r := rfl
@[simp] theorem State.respond_draws (s : State) (r : Response) : (s.respond r).draws = s.draws := rfl

/-! ### `State.popEvent` -/

@[simp] theorem State.popEvent_params (s : State) : s.popEvent.params = s.params := rfl
@[simp] theorem State.popEvent_cmd (s : State) : s.popEvent.cmd = s.cmd := rfl
@[simp] theorem State.popEvent_status (s : State) : s.popEvent.status = s.status := rfl
@[simp] theorem State.popEvent_ctrl (s : State) : s.popEvent.ctrl = s.ctrl := rfl
@[simp] theorem State.popEvent_regs (s : State) : s.popEvent.regs = s.regs := rfl
@[simp] theorem State.popEvent_outLen (s : State) : s.popEvent.outLen = s.outLen := rfl
@[simp] theorem State.popEvent_result (s : State) : s.popEvent.result = s.result := rfl
@[simp] theorem State.popEvent_tblIndex (s : State) : s.popEvent.tblIndex = s.tblIndex := rfl
@[simp] theorem State.popEvent_nodeIndex (s : State) : s.popEvent.nodeIndex = s.nodeIndex := rfl
@[simp] theorem State.popEvent_tables (s : State) : s.popEvent.tables = s.tables := rfl
@[simp] theorem State.popEvent_seq (s : State) : s.popEvent.seq = s.seq := rfl
@[simp] theorem State.popEvent_mem (s : State) : s.popEvent.mem = s.mem := rfl
@[simp] theorem State.popEvent_agenda (s : State) : s.popEvent.agenda = s.agenda.tail := rfl
@[simp] theorem State.popEvent_response (s : State) : s.popEvent.response = s.response := rfl
@[simp] theorem State.popEvent_draws (s : State) : s.popEvent.draws = s.draws := rfl

/-! ### `State.inFlightNext` -/

@[simp] theorem State.inFlightNext_params (s : State) (w : Word) : (s.inFlightNext w).params = s.params := rfl
@[simp] theorem State.inFlightNext_cmd (s : State) (w : Word) : (s.inFlightNext w).cmd = w := rfl
@[simp] theorem State.inFlightNext_status (s : State) (w : Word) : (s.inFlightNext w).status = { s.status with done := false, sat := false, err := .none } := rfl
@[simp] theorem State.inFlightNext_ctrl (s : State) (w : Word) : (s.inFlightNext w).ctrl = s.ctrl := rfl
@[simp] theorem State.inFlightNext_regs (s : State) (w : Word) : (s.inFlightNext w).regs = s.regs := rfl
@[simp] theorem State.inFlightNext_outLen (s : State) (w : Word) : (s.inFlightNext w).outLen = s.outLen := rfl
@[simp] theorem State.inFlightNext_result (s : State) (w : Word) : (s.inFlightNext w).result = s.result := rfl
@[simp] theorem State.inFlightNext_tblIndex (s : State) (w : Word) : (s.inFlightNext w).tblIndex = s.tblIndex := rfl
@[simp] theorem State.inFlightNext_nodeIndex (s : State) (w : Word) : (s.inFlightNext w).nodeIndex = s.nodeIndex := rfl
@[simp] theorem State.inFlightNext_tables (s : State) (w : Word) : (s.inFlightNext w).tables = s.tables := rfl
@[simp] theorem State.inFlightNext_seq (s : State) (w : Word) : (s.inFlightNext w).seq = .busy { word := w, latched := s.snapshot } := rfl
@[simp] theorem State.inFlightNext_mem (s : State) (w : Word) : (s.inFlightNext w).mem = s.mem := rfl
@[simp] theorem State.inFlightNext_agenda (s : State) (w : Word) : (s.inFlightNext w).agenda = engineFirst s.agenda := rfl
@[simp] theorem State.inFlightNext_response (s : State) (w : Word) : (s.inFlightNext w).response = s.response := rfl
@[simp] theorem State.inFlightNext_draws (s : State) (w : Word) : (s.inFlightNext w).draws = s.draws := rfl

/-! ### `State.blockReset` -/

@[simp] theorem State.blockReset_params (s : State) : s.blockReset.params = s.params := rfl
@[simp] theorem State.blockReset_cmd (s : State) : s.blockReset.cmd = 0 := rfl
@[simp] theorem State.blockReset_status (s : State) : s.blockReset.status = .reset := rfl
@[simp] theorem State.blockReset_ctrl (s : State) : s.blockReset.ctrl = .reset := rfl
@[simp] theorem State.blockReset_regs (s : State) : s.blockReset.regs = .reset := rfl
@[simp] theorem State.blockReset_outLen (s : State) : s.blockReset.outLen = 0 := rfl
@[simp] theorem State.blockReset_result (s : State) : s.blockReset.result = .reset := rfl
@[simp] theorem State.blockReset_tblIndex (s : State) : s.blockReset.tblIndex = 0 := rfl
@[simp] theorem State.blockReset_nodeIndex (s : State) : s.blockReset.nodeIndex = 0 := rfl
@[simp] theorem State.blockReset_tables (s : State) : s.blockReset.tables = .reset := rfl
@[simp] theorem State.blockReset_seq (s : State) : s.blockReset.seq = .idle := rfl
@[simp] theorem State.blockReset_mem (s : State) : s.blockReset.mem = s.mem := rfl
@[simp] theorem State.blockReset_agenda (s : State) : s.blockReset.agenda = s.agenda := rfl
@[simp] theorem State.blockReset_response (s : State) : s.blockReset.response = s.response := rfl
@[simp] theorem State.blockReset_draws (s : State) : s.blockReset.draws = s.draws := rfl

/-! ### `resetPulse` -/

theorem resetPulse_params (s : State) : (resetPulse s).params = s.blockReset.params := rfl
theorem resetPulse_cmd (s : State) : (resetPulse s).cmd = s.blockReset.cmd := rfl
theorem resetPulse_status (s : State) : (resetPulse s).status = s.blockReset.status := rfl
theorem resetPulse_ctrl (s : State) : (resetPulse s).ctrl = s.blockReset.ctrl := rfl
theorem resetPulse_regs (s : State) : (resetPulse s).regs = s.blockReset.regs := rfl
theorem resetPulse_outLen (s : State) : (resetPulse s).outLen = s.blockReset.outLen := rfl
theorem resetPulse_result (s : State) : (resetPulse s).result = s.blockReset.result := rfl
theorem resetPulse_tblIndex (s : State) : (resetPulse s).tblIndex = s.blockReset.tblIndex := rfl
theorem resetPulse_nodeIndex (s : State) : (resetPulse s).nodeIndex = s.blockReset.nodeIndex := rfl
theorem resetPulse_tables (s : State) : (resetPulse s).tables = s.blockReset.tables := rfl
theorem resetPulse_seq (s : State) : (resetPulse s).seq = s.blockReset.seq := rfl
theorem resetPulse_mem (s : State) : (resetPulse s).mem = s.mem.scramble s.draws s.scrambledAddrs := rfl
theorem resetPulse_agenda (s : State) : (resetPulse s).agenda = s.blockReset.agenda := rfl
theorem resetPulse_response (s : State) : (resetPulse s).response = s.blockReset.response := rfl
theorem resetPulse_draws (s : State) : (resetPulse s).draws = s.draws + s.scrambledAddrs.length := rfl

/-! ### What a command reads, under the updates -/

@[simp] theorem State.storeBytes_latched (s : State) (bs : List Byte) : (s.storeBytes bs).latched = s.latched := rfl
@[simp] theorem State.storeBytes_busy (s : State) (bs : List Byte) : (s.storeBytes bs).busy = s.busy := rfl
@[simp] theorem State.storeBytes_src (s : State) (bs : List Byte) : (s.storeBytes bs).src = s.src := rfl
@[simp] theorem State.storeBytes_len (s : State) (bs : List Byte) : (s.storeBytes bs).len = s.len := rfl
@[simp] theorem State.storeBytes_dst (s : State) (bs : List Byte) : (s.storeBytes bs).dst = s.dst := rfl
@[simp] theorem State.storeBytes_cap (s : State) (bs : List Byte) : (s.storeBytes bs).cap = s.cap := rfl
@[simp] theorem State.storeBytes_snapshot (s : State) (bs : List Byte) : (s.storeBytes bs).snapshot = s.snapshot := rfl
@[simp] theorem State.drawWord_latched (s : State) : s.drawWord.latched = s.latched := rfl
@[simp] theorem State.drawWord_busy (s : State) : s.drawWord.busy = s.busy := rfl
@[simp] theorem State.drawWord_src (s : State) : s.drawWord.src = s.src := rfl
@[simp] theorem State.drawWord_len (s : State) : s.drawWord.len = s.len := rfl
@[simp] theorem State.drawWord_dst (s : State) : s.drawWord.dst = s.dst := rfl
@[simp] theorem State.drawWord_cap (s : State) : s.drawWord.cap = s.cap := rfl
@[simp] theorem State.drawWord_snapshot (s : State) : s.drawWord.snapshot = s.snapshot := rfl
@[simp] theorem State.drawByte_latched (s : State) : s.drawByte.latched = s.latched := rfl
@[simp] theorem State.drawByte_busy (s : State) : s.drawByte.busy = s.busy := rfl
@[simp] theorem State.drawByte_src (s : State) : s.drawByte.src = s.src := rfl
@[simp] theorem State.drawByte_len (s : State) : s.drawByte.len = s.len := rfl
@[simp] theorem State.drawByte_dst (s : State) : s.drawByte.dst = s.dst := rfl
@[simp] theorem State.drawByte_cap (s : State) : s.drawByte.cap = s.cap := rfl
@[simp] theorem State.drawByte_snapshot (s : State) : s.drawByte.snapshot = s.snapshot := rfl
@[simp] theorem State.respond_latched (s : State) (r : Response) : (s.respond r).latched = s.latched := rfl
@[simp] theorem State.respond_busy (s : State) (r : Response) : (s.respond r).busy = s.busy := rfl
@[simp] theorem State.respond_src (s : State) (r : Response) : (s.respond r).src = s.src := rfl
@[simp] theorem State.respond_len (s : State) (r : Response) : (s.respond r).len = s.len := rfl
@[simp] theorem State.respond_dst (s : State) (r : Response) : (s.respond r).dst = s.dst := rfl
@[simp] theorem State.respond_cap (s : State) (r : Response) : (s.respond r).cap = s.cap := rfl
@[simp] theorem State.respond_snapshot (s : State) (r : Response) : (s.respond r).snapshot = s.snapshot := rfl
@[simp] theorem State.popEvent_latched (s : State) : s.popEvent.latched = s.latched := rfl
@[simp] theorem State.popEvent_busy (s : State) : s.popEvent.busy = s.busy := rfl
@[simp] theorem State.popEvent_src (s : State) : s.popEvent.src = s.src := rfl
@[simp] theorem State.popEvent_len (s : State) : s.popEvent.len = s.len := rfl
@[simp] theorem State.popEvent_dst (s : State) : s.popEvent.dst = s.dst := rfl
@[simp] theorem State.popEvent_cap (s : State) : s.popEvent.cap = s.cap := rfl
@[simp] theorem State.popEvent_snapshot (s : State) : s.popEvent.snapshot = s.snapshot := rfl
@[simp] theorem State.setTables_latched (s : State) (t : Tables) : (s.setTables t).latched = s.latched := rfl
@[simp] theorem State.setTables_busy (s : State) (t : Tables) : (s.setTables t).busy = s.busy := rfl
@[simp] theorem State.setTables_src (s : State) (t : Tables) : (s.setTables t).src = s.src := rfl
@[simp] theorem State.setTables_len (s : State) (t : Tables) : (s.setTables t).len = s.len := rfl
@[simp] theorem State.setTables_dst (s : State) (t : Tables) : (s.setTables t).dst = s.dst := rfl
@[simp] theorem State.setTables_cap (s : State) (t : Tables) : (s.setTables t).cap = s.cap := rfl
@[simp] theorem State.setTables_snapshot (s : State) (t : Tables) : (s.setTables t).snapshot = s.snapshot := rfl
@[simp] theorem State.setResult_latched (s : State) (r : ResultRegs) : (s.setResult r).latched = s.latched := rfl
@[simp] theorem State.setResult_busy (s : State) (r : ResultRegs) : (s.setResult r).busy = s.busy := rfl
@[simp] theorem State.setResult_src (s : State) (r : ResultRegs) : (s.setResult r).src = s.src := rfl
@[simp] theorem State.setResult_len (s : State) (r : ResultRegs) : (s.setResult r).len = s.len := rfl
@[simp] theorem State.setResult_dst (s : State) (r : ResultRegs) : (s.setResult r).dst = s.dst := rfl
@[simp] theorem State.setResult_cap (s : State) (r : ResultRegs) : (s.setResult r).cap = s.cap := rfl
@[simp] theorem State.setResult_snapshot (s : State) (r : ResultRegs) : (s.setResult r).snapshot = s.snapshot := rfl

@[simp] theorem State.accept_busy (s : State) (w : Word) : (s.accept w).busy = true := rfl
@[simp] theorem State.accept_latched (s : State) (w : Word) : (s.accept w).latched = s.snapshot := rfl
@[simp] theorem State.succeeded_busy (s : State) (out : Nat) : (s.succeeded out).busy = false := rfl
@[simp] theorem State.failed_busy (s : State) (e : ErrCode) : (s.failed e).busy = false := rfl
@[simp] theorem State.inFlightNext_busy (s : State) (w : Word) : (s.inFlightNext w).busy = true := rfl
@[simp] theorem State.blockReset_busy (s : State) : s.blockReset.busy = false := rfl

theorem State.busy_of_seq {s : State} {f : InFlight} (h : s.seq = .busy f) : s.busy = true := by
  simp [State.busy, h]

theorem State.busy_eq_false_iff (s : State) : s.busy = false ↔ s.seq = .idle := by
  unfold State.busy; split <;> simp_all

theorem State.latched_of_seq {s : State} {f : InFlight} (h : s.seq = .busy f) :
    s.latched = f.latched := by
  simp [State.latched, h]

theorem State.latched_of_idle {s : State} (h : s.seq = .idle) : s.latched = s.snapshot := by
  simp [State.latched, h]

/-! ### The records inside -/

@[simp] theorem Tables.withFreq_ft (r : Tables) (ft : List FreqEntry) :
    (r.withFreq ft).ft = ft := rfl
@[simp] theorem Tables.withFreq_tree (r : Tables) (ft : List FreqEntry) :
    (r.withFreq ft).tree = r.tree := rfl
@[simp] theorem Tables.withFreq_treeValid (r : Tables) (ft : List FreqEntry) :
    (r.withFreq ft).treeValid = false := rfl
@[simp] theorem Tables.withFreq_ct (r : Tables) (ft : List FreqEntry) :
    (r.withFreq ft).ct = r.ct := rfl
@[simp] theorem Tables.withFreq_ctValid (r : Tables) (ft : List FreqEntry) :
    (r.withFreq ft).ctValid = false := rfl

@[simp] theorem Tables.withTree_ft (r : Tables) (t : Tree) :
    (r.withTree t).ft = r.ft := rfl
@[simp] theorem Tables.withTree_tree (r : Tables) (t : Tree) :
    (r.withTree t).tree = t := rfl
@[simp] theorem Tables.withTree_treeValid (r : Tables) (t : Tree) :
    (r.withTree t).treeValid = true := rfl
@[simp] theorem Tables.withTree_ct (r : Tables) (t : Tree) :
    (r.withTree t).ct = r.ct := rfl
@[simp] theorem Tables.withTree_ctValid (r : Tables) (t : Tree) :
    (r.withTree t).ctValid = false := rfl

@[simp] theorem Tables.withCodes_ft (r : Tables) (c : List Code) :
    (r.withCodes c).ft = r.ft := rfl
@[simp] theorem Tables.withCodes_tree (r : Tables) (c : List Code) :
    (r.withCodes c).tree = r.tree := rfl
@[simp] theorem Tables.withCodes_treeValid (r : Tables) (c : List Code) :
    (r.withCodes c).treeValid = r.treeValid := rfl
@[simp] theorem Tables.withCodes_ct (r : Tables) (c : List Code) :
    (r.withCodes c).ct = c := rfl
@[simp] theorem Tables.withCodes_ctValid (r : Tables) (c : List Code) :
    (r.withCodes c).ctValid = true := rfl

@[simp] theorem OperandRegs.withImage_srcAddr (r : OperandRegs) (w h : Nat) :
    (r.withImage w h).srcAddr = r.srcAddr := rfl
@[simp] theorem OperandRegs.withImage_srcLen (r : OperandRegs) (w h : Nat) :
    (r.withImage w h).srcLen = r.srcLen := rfl
@[simp] theorem OperandRegs.withImage_dstAddr (r : OperandRegs) (w h : Nat) :
    (r.withImage w h).dstAddr = r.dstAddr := rfl
@[simp] theorem OperandRegs.withImage_dstCap (r : OperandRegs) (w h : Nat) :
    (r.withImage w h).dstCap = r.dstCap := rfl
@[simp] theorem OperandRegs.withImage_qstep (r : OperandRegs) (w h : Nat) :
    (r.withImage w h).qstep = r.qstep := rfl
@[simp] theorem OperandRegs.withImage_imgWidth (r : OperandRegs) (w h : Nat) :
    (r.withImage w h).imgWidth = BitVec.ofNat 32 w := rfl
@[simp] theorem OperandRegs.withImage_imgHeight (r : OperandRegs) (w h : Nat) :
    (r.withImage w h).imgHeight = BitVec.ofNat 32 h := rfl
@[simp] theorem OperandRegs.withImage_audChannels (r : OperandRegs) (w h : Nat) :
    (r.withImage w h).audChannels = r.audChannels := rfl
@[simp] theorem OperandRegs.withImage_audSwidth (r : OperandRegs) (w h : Nat) :
    (r.withImage w h).audSwidth = r.audSwidth := rfl
@[simp] theorem OperandRegs.withImage_audRate (r : OperandRegs) (w h : Nat) :
    (r.withImage w h).audRate = r.audRate := rfl
@[simp] theorem OperandRegs.withImage_audFrames (r : OperandRegs) (w h : Nat) :
    (r.withImage w h).audFrames = r.audFrames := rfl

@[simp] theorem ResultRegs.withPack_pad (r : ResultRegs) (p : Packed) (n : Nat) :
    (r.withPack p n).pad = BitVec.ofNat 3 p.pad := rfl
@[simp] theorem ResultRegs.withPack_runs (r : ResultRegs) (p : Packed) (n : Nat) :
    (r.withPack p n).runs = r.runs := rfl
@[simp] theorem ResultRegs.withPack_count (r : ResultRegs) (p : Packed) (n : Nat) :
    (r.withPack p n).count = BitVec.ofNat 32 n := rfl
@[simp] theorem ResultRegs.withPack_bitlen (r : ResultRegs) (p : Packed) (n : Nat) :
    (r.withPack p n).bitlen = BitVec.ofNat 64 p.bitLen := rfl

@[simp] theorem ResultRegs.withRuns_pad (r : ResultRegs) (k n : Nat) :
    (r.withRuns k n).pad = r.pad := rfl
@[simp] theorem ResultRegs.withRuns_runs (r : ResultRegs) (k n : Nat) :
    (r.withRuns k n).runs = BitVec.ofNat 32 k := rfl
@[simp] theorem ResultRegs.withRuns_count (r : ResultRegs) (k n : Nat) :
    (r.withRuns k n).count = BitVec.ofNat 32 n := rfl
@[simp] theorem ResultRegs.withRuns_bitlen (r : ResultRegs) (k n : Nat) :
    (r.withRuns k n).bitlen = r.bitlen := rfl

@[simp] theorem OperandRegs.withAudio_srcAddr (r : OperandRegs) (p : AudioParams) :
    (r.withAudio p).srcAddr = r.srcAddr := rfl
@[simp] theorem OperandRegs.withAudio_srcLen (r : OperandRegs) (p : AudioParams) :
    (r.withAudio p).srcLen = r.srcLen := rfl
@[simp] theorem OperandRegs.withAudio_dstAddr (r : OperandRegs) (p : AudioParams) :
    (r.withAudio p).dstAddr = r.dstAddr := rfl
@[simp] theorem OperandRegs.withAudio_dstCap (r : OperandRegs) (p : AudioParams) :
    (r.withAudio p).dstCap = r.dstCap := rfl
@[simp] theorem OperandRegs.withAudio_qstep (r : OperandRegs) (p : AudioParams) :
    (r.withAudio p).qstep = r.qstep := rfl
@[simp] theorem OperandRegs.withAudio_imgWidth (r : OperandRegs) (p : AudioParams) :
    (r.withAudio p).imgWidth = r.imgWidth := rfl
@[simp] theorem OperandRegs.withAudio_imgHeight (r : OperandRegs) (p : AudioParams) :
    (r.withAudio p).imgHeight = r.imgHeight := rfl
@[simp] theorem OperandRegs.withAudio_audChannels (r : OperandRegs) (p : AudioParams) :
    (r.withAudio p).audChannels = BitVec.ofNat 16 p.channels := rfl
@[simp] theorem OperandRegs.withAudio_audSwidth (r : OperandRegs) (p : AudioParams) :
    (r.withAudio p).audSwidth = BitVec.ofNat 16 p.swidth := rfl
@[simp] theorem OperandRegs.withAudio_audRate (r : OperandRegs) (p : AudioParams) :
    (r.withAudio p).audRate = BitVec.ofNat 32 p.rate := rfl
@[simp] theorem OperandRegs.withAudio_audFrames (r : OperandRegs) (p : AudioParams) :
    (r.withAudio p).audFrames = BitVec.ofNat 32 p.frames := rfl

@[simp] theorem Status.writeOneToClear_done (r : Status) (v : Word) :
    (r.writeOneToClear v).done = (r.done && !v.getLsbD 1) := rfl
@[simp] theorem Status.writeOneToClear_lost (r : Status) (v : Word) :
    (r.writeOneToClear v).lost = (r.lost && !v.getLsbD 2) := rfl
@[simp] theorem Status.writeOneToClear_sat (r : Status) (v : Word) :
    (r.writeOneToClear v).sat = r.sat := rfl
@[simp] theorem Status.writeOneToClear_err (r : Status) (v : Word) :
    (r.writeOneToClear v).err = r.err := rfl

end Sys2Proof.Machine
end

