-- ==== Sys2Proof/Laws/Step.lean ====
section
/-! SUPPORT. What one step can do, said once: the turn by the head of the agenda, the engine's turn,
the host's actions, and what each leaves unchanged. -/

namespace Sys2Proof.Machine

/-! ### The turn -/

theorem step_of_nil {s : State} (h : s.agenda = []) : step s = engineTurn s := by
  simp [step, h]

theorem step_of_engine {s : State} {es : List Event} (h : s.agenda = .engine :: es) :
    step s = engineTurn s.popEvent := by
  simp [step, h]

theorem step_of_reset {s : State} {es : List Event} (h : s.agenda = .reset :: es) :
    step s = .next (resetPulse s.popEvent) := by
  simp [step, h]

theorem step_of_host {s : State} {a : HostAction} {es : List Event}
    (h : s.agenda = .host a :: es) : step s = hostStep s.popEvent a := by
  simp [step, h]

theorem popEvent_of_nil {s : State} (h : s.agenda = []) : s.popEvent = s := by
  cases s; simp_all [State.popEvent]

theorem popEvent_of_cons {s : State} {e : Event} {es : List Event} (h : s.agenda = e :: es) :
    s.popEvent = { s with agenda := es } := by
  simp [State.popEvent, h]

/-- Everything a step that answers a next state can be. -/
theorem step_cases {s t : State} (h : step s = .next t) :
    engineTurn s.popEvent = .next t ∨ t = resetPulse s.popEvent ∨
      ∃ a, hostStep s.popEvent a = .next t := by
  match hs : s.agenda with
  | [] => left; rwa [step_of_nil hs, ← popEvent_of_nil hs] at h
  | .engine :: es => left; rwa [step_of_engine hs] at h
  | .reset :: es => right; left; rw [step_of_reset hs] at h; injection h with h; exact h.symm
  | .host a :: es => right; right; exact ⟨a, by rwa [step_of_host hs] at h⟩

/-! ### The engine's turn -/

theorem engineTurn_idle {s : State} (h : s.seq = .idle) : engineTurn s = .next s := by
  simp [engineTurn, h]

theorem engineTurn_ok {s : State} {f : InFlight} {i : Instr} (h : s.seq = .busy f)
    (hd : decode f.word = .ok i) : engineTurn s = exec i s := by
  simp [engineTurn, h, hd]

theorem engineTurn_illegal {s : State} {f : InFlight} {r : DecodeReject} (h : s.seq = .busy f)
    (hd : decode f.word = .error r) : engineTurn s = .next (s.failed .illegalCommand) := by
  simp [engineTurn, h, hd, execIllegal, illegal, completion, State.finish]

/-- Everything the engine's turn can be. -/
theorem engineTurn_cases {s t : State} (h : engineTurn s = .next t) :
    (s.seq = .idle ∧ t = s) ∨
    ∃ f, s.seq = .busy f ∧
      ((∃ i, decode f.word = .ok i ∧ exec i s = .next t) ∨
        ((∃ r, decode f.word = .error r) ∧ t = s.failed .illegalCommand)) := by
  cases hs : s.seq with
  | idle => rw [engineTurn_idle hs] at h; injection h with h; exact .inl ⟨rfl, h.symm⟩
  | busy f =>
    refine .inr ⟨f, rfl, ?_⟩
    cases hd : decode f.word with
    | ok i => exact .inl ⟨i, rfl, by rwa [engineTurn_ok hs hd] at h⟩
    | error r =>
      rw [engineTurn_illegal hs hd] at h; injection h with h
      exact .inr ⟨⟨r, rfl⟩, h.symm⟩

/-! ### The register window -/

/-- An aligned 32-bit access inside the window reaches its register (10_state.md R37). -/
theorem hostRegisterAccess_aligned (s : State) {off : Nat} (act : Nat → State) (h : off < 256)
    (ha : off % 4 = 0) :
    hostRegisterAccess s .word (s.params.base + off) act = .next (act off) := by
  simp [hostRegisterAccess, h, ha]

/-- Everything a register access that answers a next state can be. -/
theorem hostRegisterAccess_next {s t : State} {size : AccessSize} {addr : Nat} {act : Nat → State}
    (h : hostRegisterAccess s size addr act = .next t) :
    size = .word ∧ ∃ off, addr = s.params.base + off ∧ off < 256 ∧ off % 4 = 0 ∧ t = act off := by
  unfold hostRegisterAccess at h
  simp only at h
  split at h
  · rename_i hc
    obtain ⟨h1, h2, h3, h4⟩ := hc
    injection h with h
    exact ⟨h1, addr - s.params.base, by omega, h3, h4, h.symm⟩
  · cases h

/-- The map from offsets to registers inverts the offset column (10_state.md R20). -/
theorem Reg.ofOffset_offset (r : Reg) : Reg.ofOffset r.offset = some r := by
  cases r <;> rfl

/-- Everything a host register read can be (10_state.md R35). -/
theorem hostReadReg_cases (s : State) (off : Nat) :
    hostReadReg s off = s.drawWord ∨ ∃ v, hostReadReg s off = s.respond (.word v) := by
  unfold hostReadReg
  split
  · exact .inr ⟨0, rfl⟩
  · split
    · exact .inl rfl
    · exact .inr ⟨_, rfl⟩

/-- A plain write changes the operand registers or a readout index, nothing else. -/
theorem writePlain_eq (s : State) (r : Reg) (v : Word) :
    ∃ (g : OperandRegs) (i j : Word),
      s.writePlain r v = { s with regs := g, tblIndex := i, nodeIndex := j } := by
  cases r <;> exact ⟨_, _, _, rfl⟩

/-- Everything a host register write can be (10_state.md R36). -/
theorem hostWriteReg_cases (s : State) (off : Nat) (v : Word) :
    hostWriteReg s off v = s ∨
    (s.busy = false ∧ hostWriteReg s off v = s.accept v) ∨
    (s.busy = true ∧ hostWriteReg s off v = { s with status := { s.status with lost := true } }) ∨
    hostWriteReg s off v = { s with status := s.status.writeOneToClear v } ∨
    hostWriteReg s off v = { s with ctrl := Ctrl.ofWord v } ∨
    (s.busy = false ∧ ∃ (g : OperandRegs) (i j : Word),
      hostWriteReg s off v = { s with regs := g, tblIndex := i, nodeIndex := j }) := by
  unfold hostWriteReg
  split
  · exact .inl rfl
  · unfold State.writeCmd
    cases hb : s.busy <;> simp
  · simp
  · simp
  · rename_i r _ _ _ _
    cases hb : s.busy
    · obtain ⟨g, i, j, he⟩ := writePlain_eq s r v
      exact .inr (.inr (.inr (.inr (.inr ⟨rfl, g, i, j, by simpa using he⟩))))
    · simp

/-! ### The host's actions -/

/-- Everything a host action that answers a next state can be. -/
theorem hostStep_cases {s t : State} {a : HostAction} (h : hostStep s a = .next t) :
    (∃ r, t = s.respond r) ∨ t = s.drawWord ∨ t = s.drawByte ∨
    (∃ off v, t = hostWriteReg s off v) ∨
    (∃ x b, x < s.params.memSize ∧ s.hazardAt x = false ∧ t = { s with mem := s.mem.write x b }) := by
  cases a with
  | readReg size addr =>
    have h : hostRegisterAccess s size addr (fun off => hostReadReg s off) = .next t := h
    obtain ⟨-, off, -, -, -, rfl⟩ := hostRegisterAccess_next h
    rcases hostReadReg_cases s off with h | ⟨v, h⟩
    · exact .inr (.inl h)
    · exact .inl ⟨_, h⟩
  | writeReg size addr v =>
    have h : hostRegisterAccess s size addr (fun off => hostWriteReg s off v) = .next t := h
    obtain ⟨-, off, -, -, -, rfl⟩ := hostRegisterAccess_next h
    exact .inr (.inr (.inr (.inl ⟨off, v, rfl⟩)))
  | readMem addr =>
    simp only [hostStep, hostReadByte] at h
    split at h
    · cases h
    · split at h
      · injection h with h; exact .inr (.inr (.inl h.symm))
      · injection h with h; exact .inl ⟨_, h.symm⟩
  | writeMem addr b =>
    simp only [hostStep, hostWriteByte] at h
    split at h
    · cases h
    · split at h
      · cases h
      · rename_i h1 h2
        injection h with h
        exact .inr (.inr (.inr (.inr ⟨addr, b, by omega, by simpa using h2, h.symm⟩)))

/-! ### Reset -/

/-- The bytes a reset scrambles are destination bytes that exist (70_reset_and_hazards.md R241). -/
theorem mem_scrambledAddrs {s : State} {a : Nat} :
    a ∈ s.scrambledAddrs ↔ s.beingWritten a = true ∧ a < s.params.memSize := by
  simp only [State.scrambledAddrs, List.mem_filter, List.mem_map, List.mem_range]
  constructor
  · rintro ⟨⟨i, hi, rfl⟩, hw⟩
    exact ⟨hw, by omega⟩
  · rintro ⟨hw, hm⟩
    refine ⟨⟨a - s.dst, ?_, ?_⟩, hw⟩ <;>
      · simp only [State.beingWritten, inDst, Bool.and_eq_true, decide_eq_true_eq] at hw
        have := hw.1.2
        simp only [State.dst, State.cap] at *
        omega

/-- While IDLE a reset scrambles nothing (70_reset_and_hazards.md R240). -/
theorem scrambledAddrs_idle {s : State} (h : s.busy = false) : s.scrambledAddrs = [] := by
  simp [State.scrambledAddrs, State.beingWritten, h]

end Sys2Proof.Machine
end

