-- ==== Sys2Proof/Tests/Slice0.lean ====
section
/-! SUPPORT. The model's own tests, one step each, expected values from 95_test_vectors.md, and a
witness for the hypotheses of every statement. -/

namespace Sys2Proof.Tests

open Sys2Proof Sys2Proof.Machine Sys2Proof.Spec

/-! ### Small states -/

/-- The outcome is a next state that passes `p`. -/
def answers (o : Host.Outcome State Fault Refusal) (p : State → Bool) : Bool :=
  match o with
  | .next t => p t
  | .fault _ => false
  | .refused _ => false

/-- Source range at `sa` holding `bytes`, destination range `[da, da + dc)`. -/
def ranges (sa : Nat) (bytes : List Byte) (da dc : Nat) : OperandRegs :=
  { OperandRegs.reset with
    srcAddr := BitVec.ofNat 32 sa, srcLen := BitVec.ofNat 32 bytes.length
    dstAddr := BitVec.ofNat 32 da, dstCap := BitVec.ofNat 32 dc }

/-- A command in flight on registers `g`, tables `T` and `bytes` at `sa`. -/
def inFlight (p : Params) (g : OperandRegs) (T : Tables) (sa : Nat) (bytes : List Byte) : State :=
  State.accept { State.resetFor p with
    regs := g, tables := T, mem := State.reset.mem.writeBytes sa bytes } 0

/-- A text as its 4-byte symbols. -/
def text (xs : List Nat) : List Byte := xs.flatMap fun x => toBE 4 x

/-- Parameters with small capacities. -/
def caps (syms len : Nat) : Params := { Params.vectors with maxSymbols := syms, maxCodeLen := len }

/-- T1's tables: a/4, b/3, c/2 with the codes 0, 11, 10 (95_test_vectors.md T1). -/
def tablesT1 : Tables :=
  { ft := [⟨0x61, 4⟩, ⟨0x62, 3⟩, ⟨0x63, 2⟩]
    tree := { nodes := [.leaf 0x61 4, .leaf 0x62 3, .leaf 0x63 2, .internal 5 2 1, .internal 9 0 3]
              root := 4 }
    treeValid := true
    ct := [[false], [true, true], [true, false]]
    ctValid := true }

/-- One register write or read of the host, then nothing. -/
def hostWrites (s : State) (off : Nat) (v : Word) : State :=
  { s with agenda := [.host (.writeReg .word (s.params.base + off) v)] }

def hostReads (s : State) (off : Nat) : State :=
  { s with agenda := [.host (.readReg .word (s.params.base + off))] }

/-! ### Decoding: words written out from 30_encoding.md R80 and R82 -/

theorem test_decode_nop : decode 0x00000000#32 = .ok .nop := by decide
theorem test_decode_freqCount : decode 0x00000001#32 = .ok .freqCount := by decide
theorem test_decode_freqLoad : decode 0x00000002#32 = .ok .freqLoad := by decide
theorem test_decode_treeBuild : decode 0x00000003#32 = .ok .treeBuild := by decide
theorem test_decode_codeGen : decode 0x00000004#32 = .ok .codeGen := by decide
theorem test_decode_huffPack : decode 0x00000005#32 = .ok .huffPack := by decide
theorem test_decode_textEncode : decode 0x00000006#32 = .ok .textEncode := by decide
theorem test_decode_imgEncode : decode 0x00000007#32 = .ok .imgEncode := by decide
theorem test_decode_imgDecode : decode 0x00000008#32 = .ok .imgDecode := by decide
theorem test_decode_audEncode : decode 0x00000009#32 = .ok .audEncode := by decide
theorem test_decode_audDecode : decode 0x0000000A#32 = .ok .audDecode := by decide
theorem test_decode_clearTables : decode 0x0000000B#32 = .ok .clearTables := by decide

/-- V101, V102, V103: reserved opcodes, and words whose bits 31:8 are not zero. -/
theorem test_decode_illegal :
    decode 0x0000000C#32 = .error .reservedOpcode ∧ decode 0x000000FF#32 = .error .reservedOpcode ∧
    decode 0x00000100#32 = .error .mbzNotZero ∧ decode 0x80000001#32 = .error .mbzNotZero := by
  decide

/-- The table's numbering: bit 0 is least significant; bits above `nbits` are zero. -/
theorem test_decodeTableWord :
    decodeTableWord 32 0x0000000A = some .audDecode ∧ decodeTableWord 8 0x0B = some .clearTables ∧
    decodeTableWord 32 0x0000000C = none ∧ decodeTableWord 40 0x0100000001 = none := by decide

/-! ### WellFormed refuses what is ill formed -/

theorem test_wf_mbz : WordWf.mbz 0x00000100#32 = false ∧ WordWf.legal 0x00000100#32 = false := by
  decide

theorem test_wf_op : WordWf.op 0x0000000C#32 = false ∧ WordWf.legal 0x0000000C#32 = false := by
  decide

theorem test_wf_memSize : ({ Params.vectors with memSize := 0 } : Params).wf = false ∧
    ({ Params.vectors with memSize := 0x100000001 } : Params).wf = false := by decide

theorem test_wf_maxSymbols : ({ Params.vectors with maxSymbols := 0 } : Params).wf = false ∧
    ({ Params.vectors with maxSymbols := 0x80000001 } : Params).wf = false := by decide

theorem test_wf_maxCodeLen : ({ Params.vectors with maxCodeLen := 0 } : Params).wf = false ∧
    ({ Params.vectors with maxCodeLen := 65 } : Params).wf = false := by decide

theorem test_wf_vectors : Params.vectors.wf = true := by decide

/-! ### The first command after reset (V120) -/

theorem test_first_command_after_reset :
    [(0x00, 0x002), (0x01, 0x102), (0x02, 0x202), (0x03, 0x102), (0x04, 0x502), (0x05, 0x502),
     (0x06, 0x102), (0x07, 0x102), (0x08, 0x202), (0x09, 0x102), (0x0A, 0x202), (0x0B, 0x002),
     (0x0C, 0x602)].all (fun p =>
      answers (step (State.reset.withFetchWord 32 p.1)) fun t =>
        t.statusWord == BitVec.ofNat 32 p.2 && t.outLen == 0) = true := by decide

/-! ### The commands: success at the boundary, and the error one past it -/

/-- V107: LOST survives a NOP. -/
theorem test_nop : answers (exec .nop
    { State.reset with status := { Status.reset with lost := true, sat := true } })
    (fun t => t.statusWord == 0x0000000E#32) = true := by decide

/-- V3's text: 0x1F600, 0x41, 0xE9, 0x41. -/
def sFreqCount (maxSymbols : Nat) : State :=
  inFlight (caps maxSymbols 32) (ranges 0x1000 (text [0x1F600, 0x41, 0xE9, 0x41]) 0 0)
    Tables.reset 0x1000 (text [0x1F600, 0x41, 0xE9, 0x41])

/-- V3: ascending symbol order; P_MAX_SYMBOLS exactly reached. -/
theorem test_freqCount : freqCountChecks (sFreqCount 3) = none ∧
    answers (exec .freqCount (sFreqCount 3)) (fun t =>
      decide (t.tables.ft = [⟨0x41, 2⟩, ⟨0xE9, 1⟩, ⟨0x1F600, 1⟩] ∧ t.result.count = 4)) = true := by
  decide

/-- V6's kind: one symbol more than P_MAX_SYMBOLS. -/
theorem test_freqCount_capacity : freqCountChecks (sFreqCount 2) = some .capacity ∧
    answers (exec .freqCount (sFreqCount 2)) (fun t => t.statusWord == 0x402#32) = true := by decide

/-- The header of V18 (last byte FE) and V17 (last byte FF). -/
def header (last : Byte) : List Byte :=
  [0, 0, 0, 2, 0, 0, 0, 0x61, 0, 0, 0, 0, 0, 0, 0, 1, 0, 0, 0, 0x62, 0xFF, 0xFF, 0xFF, 0xFF, 0xFF,
   0xFF, 0xFF, last]

def sFreqLoad (last : Byte) : State :=
  inFlight Params.vectors (ranges 0x1000 (header last) 0 0) Tables.reset 0x1000 (header last)

/-- V18: a frequency sum of exactly 2^64-1 is accepted. -/
theorem test_freqLoad : freqLoadChecks (sFreqLoad 0xFE) = none ∧
    answers (exec .freqLoad (sFreqLoad 0xFE)) (fun t =>
      decide (t.tables.ft = [⟨0x61, 1⟩, ⟨0x62, 0xFFFFFFFFFFFFFFFE⟩])) = true := by decide

/-- V17: a frequency sum of 2^64 is CORRUPT_STREAM. -/
theorem test_freqLoad_corrupt : freqLoadChecks (sFreqLoad 0xFF) = some .corruptStream ∧
    answers (exec .freqLoad (sFreqLoad 0xFF)) (fun t => t.statusWord == 0x202#32) = true := by decide

/-- V29's table: a/1, b/1, c/2. -/
def ftV29 : List FreqEntry := [⟨0x61, 1⟩, ⟨0x62, 1⟩, ⟨0x63, 2⟩]

/-- V29's tree: at the second pop c and node 3 tie at 2, and the lower index is popped first. -/
def treeV29 : Tree :=
  { nodes := [.leaf 0x61 1, .leaf 0x62 1, .leaf 0x63 2, .internal 2 0 1, .internal 4 2 3]
    root := 4 }

def sTreeBuild : State := { State.reset with tables := { Tables.reset with ft := ftV29 } }

theorem test_treeBuild : sTreeBuild.tables.ft ≠ [] ∧
    answers (exec .treeBuild sTreeBuild) (fun t =>
      decide (t.tables.tree = treeV29 ∧ t.tables.treeValid = true)) = true := by decide

/-- V25: an empty FT. -/
theorem test_treeBuild_empty : State.reset.tables.ft = [] ∧
    answers (exec .treeBuild State.reset) (fun t => t.statusWord == 0x102#32) = true := by decide

def sCodeGen (maxCodeLen : Nat) : State :=
  { State.resetFor (caps 256 maxCodeLen) with
    tables := { Tables.reset with ft := ftV29, tree := treeV29, treeValid := true } }

/-- V29: a = 10, b = 11, c = 0, with P_MAX_CODE_LEN exactly reached. -/
theorem test_codeGen : (sCodeGen 2).tables.treeValid = true ∧
    (∀ c ∈ buildCodes (sCodeGen 2).tables.tree, c.length ≤ (sCodeGen 2).params.maxCodeLen) ∧
    answers (exec .codeGen (sCodeGen 2)) (fun t =>
      decide (t.tables.ct = [[true, false], [true, true], [false]] ∧ t.tables.ctValid = true)) =
        true := by decide

/-- V30a's kind: the deepest leaf is one deeper than P_MAX_CODE_LEN; V25: no valid tree. -/
theorem test_codeGen_errors : (sCodeGen 1).tables.treeValid = true ∧
    (∃ c ∈ buildCodes (sCodeGen 1).tables.tree, (sCodeGen 1).params.maxCodeLen < c.length) ∧
    answers (exec .codeGen (sCodeGen 1)) (fun t => t.statusWord == 0x402#32) = true ∧
    State.reset.tables.treeValid = false ∧
    answers (exec .codeGen State.reset) (fun t => t.statusWord == 0x502#32) = true := by decide

/-- V38's text "abcc". -/
def textV38 : List Byte := text [0x61, 0x62, 0x63, 0x63]

/-- V29's tables with their codes. -/
def tablesV29 : Tables :=
  { ft := ftV29, tree := treeV29, treeValid := true
    ct := [[true, false], [true, true], [false]], ctValid := true }

def sHuffPack (cap : Nat) : State :=
  inFlight Params.vectors (ranges 0x100 textV38 0x200 cap) tablesV29 0x100 textV38

/-- V38's payload B0, 6 bits, 2 padding bits, in exactly DST_CAP bytes. -/
theorem test_huffPack : huffPackChecks (sHuffPack 1) = none ∧
    answers (exec .huffPack (sHuffPack 1)) (fun t =>
      decide (t.mem.bytes 0x200 1 = [0xB0] ∧ t.outLen = 1 ∧
        t.result = { pad := 2, runs := 0, count := 4, bitlen := 6 })) = true := by decide

/-- V49's kind: one byte too few. -/
theorem test_huffPack_capacity : huffPackChecks (sHuffPack 0) = some .capacity ∧
    answers (exec .huffPack (sHuffPack 0)) (fun t => t.statusWord == 0x402#32) = true := by decide

def sTextEncode (cap : Nat) : State :=
  inFlight Params.vectors (ranges 0x1000 textV38 0x400 cap) Tables.reset 0x1000 textV38

/-- V38's artifact, in exactly DST_CAP bytes. -/
theorem test_textEncode : textEncodeChecks (sTextEncode 46) = none ∧
    answers (exec .textEncode (sTextEncode 46)) (fun t =>
      decide (t.mem.bytes 0x400 46 =
        [0, 0, 0, 3, 0, 0, 0, 0x61, 0, 0, 0, 0, 0, 0, 0, 1, 0, 0, 0, 0x62, 0, 0, 0, 0, 0, 0, 0, 1,
         0, 0, 0, 0x63, 0, 0, 0, 0, 0, 0, 0, 2, 2, 0, 0, 0, 1, 0xB0] ∧
        t.outLen = 46 ∧ t.tables.tree = treeV29 ∧ t.result.bitlen = 6)) = true := by decide

/-- V44's kind: one byte too few, and the tables stay. -/
theorem test_textEncode_capacity : textEncodeChecks (sTextEncode 45) = some .capacity ∧
    answers (exec .textEncode (sTextEncode 45)) (fun t =>
      decide (t.statusWord = 0x402#32 ∧ t.tables = Tables.reset)) = true := by decide

/-- T2's pixels: red, red, red, blue, blue. -/
def pixelsT2 : List Byte :=
  [0xFF, 0, 0, 0xFF, 0, 0, 0xFF, 0, 0, 0, 0, 0xFF, 0, 0, 0xFF]

/-- T2's artifact. -/
def artifactT2 : List Byte :=
  [0, 0, 0, 5, 0, 0, 0, 1, 0, 0, 0, 2, 0xFF, 0, 0, 3, 0, 0, 0xFF, 2]

def sImgEncode (cap : Nat) : State :=
  inFlight Params.vectors
    { ranges 0x100 pixelsT2 0x200 cap with imgWidth := 5, imgHeight := 1 } Tables.reset 0x100 pixelsT2

/-- T2: the 20-byte artifact, in exactly DST_CAP bytes. -/
theorem test_imgEncode : imgEncodeChecks (sImgEncode 20) = none ∧
    answers (exec .imgEncode (sImgEncode 20)) (fun t =>
      decide (t.mem.bytes 0x200 20 = artifactT2 ∧ t.outLen = 20 ∧ t.result.runs = 2 ∧
        t.result.count = 5)) = true := by decide

/-- V55: one byte too few. -/
theorem test_imgEncode_capacity : imgEncodeChecks (sImgEncode 19) = some .capacity ∧
    answers (exec .imgEncode (sImgEncode 19)) (fun t => t.statusWord == 0x402#32) = true := by decide

def sImgDecode (cap : Nat) : State :=
  inFlight Params.vectors (ranges 0x200 artifactT2 0x300 cap) Tables.reset 0x200 artifactT2

/-- V60: the pixels come back, with width and height. -/
theorem test_imgDecode : imgDecodeChecks (sImgDecode 15) = none ∧
    answers (exec .imgDecode (sImgDecode 15)) (fun t =>
      decide (t.mem.bytes 0x300 15 = pixelsT2 ∧ t.outLen = 15 ∧ t.regs.imgWidth = 5 ∧
        t.regs.imgHeight = 1 ∧ t.result.runs = 2 ∧ t.result.count = 5)) = true := by decide

/-- V69: one byte too few. -/
theorem test_imgDecode_capacity : imgDecodeChecks (sImgDecode 14) = some .capacity ∧
    answers (exec .imgDecode (sImgDecode 14)) (fun t => t.statusWord == 0x402#32) = true := by decide

/-- V70's samples: -1, -500, -501, -32768, 32767. -/
def samplesV70 : List Byte := [0xFF, 0xFF, 0xFE, 0x0C, 0xFE, 0x0B, 0x80, 0x00, 0x7F, 0xFF]

/-- V71's artifact (floor mode). -/
def artifactV71 : List Byte :=
  [0, 1, 0, 2, 0, 0, 0x1F, 0x40, 0, 0, 0, 5, 0, 0, 0x01, 0xF4, 0, 0, 0, 4, 0xFF, 0xFF, 0xFE, 0x0C,
   0, 0, 0, 2, 0xFF, 0xFF, 0xFC, 0x18, 0, 0, 0, 1, 0xFF, 0xFF, 0x7F, 0x18, 0, 0, 0, 1, 0, 0, 0x7E,
   0xF4, 0, 0, 0, 1]

def sAudEncode (qfloor : Bool) (qstep : Word) (cap : Nat) : State :=
  State.accept { State.reset with
    ctrl := { irqEn := false, qfloor := qfloor }
    regs := { ranges 0x400 samplesV70 0x500 cap with
      qstep := qstep, audRate := 8000, audFrames := 5 }
    mem := State.reset.mem.writeBytes 0x400 samplesV70 } 9

/-- V71: floor quantization. -/
theorem test_audEncode : audEncodeChecks (sAudEncode true 500 52) = none ∧
    answers (exec .audEncode (sAudEncode true 500 52)) (fun t =>
      decide (t.mem.bytes 0x500 52 = artifactV71 ∧ t.outLen = 52 ∧ t.result.runs = 4 ∧
        t.result.count = 5)) = true := by decide

/-- V77: the first step above 2^31-1. -/
theorem test_audEncode_step :
    audEncodeChecks (sAudEncode true 0x80000000#32 52) = some .invalidParameter ∧
    answers (exec .audEncode (sAudEncode true 0x80000000#32 52)) (fun t =>
      t.statusWord == 0x302#32) = true := by decide

def sAudDecode (cap : Nat) : State :=
  inFlight Params.vectors (ranges 0x500 artifactV71 0x600 cap) Tables.reset 0x500 artifactV71

/-- V86: -33000 is clamped to -32768 and SAT is set. -/
theorem test_audDecode : audDecodeChecks (sAudDecode 10) = none ∧
    answers (exec .audDecode (sAudDecode 10)) (fun t =>
      decide (t.mem.bytes 0x600 10 = [0xFE, 0x0C, 0xFE, 0x0C, 0xFC, 0x18, 0x80, 0x00, 0x7E, 0xF4] ∧
        t.statusWord = 0xA#32 ∧ t.regs.audRate = 8000 ∧ t.regs.audFrames = 5)) = true := by decide

/-- V95's kind: one byte too few; SAT stays 0. -/
theorem test_audDecode_capacity : audDecodeChecks (sAudDecode 9) = some .capacity ∧
    answers (exec .audDecode (sAudDecode 9)) (fun t => t.statusWord == 0x402#32) = true := by decide

/-- V35: after CLEAR_TABLES NSYM, TBL_STATE are 0 and TREE_ROOT is all ones. -/
theorem test_clearTables : answers (exec .clearTables { State.reset with tables := tablesT1 })
    (fun t => t.readReg .nsym == 0 && t.readReg .tblState == 0 &&
      t.readReg .treeRoot == 0xFFFFFFFF#32) = true := by decide

/-! ### The shell -/

/-- V105: a CMD write while BUSY is ignored and sets LOST. -/
theorem test_lost : answers (step (hostWrites (State.reset.accept 0) 0x08 3))
    (fun t => t.statusWord == 0x5#32 && t.cmd == 0) = true := by decide

/-- T1's readout: TBL_INDEX 2 selects c/2 with code 10; NODE_INDEX 3 is (5, L2, R1). -/
theorem test_readout :
    let s : State := { State.reset with tables := tablesT1, tblIndex := 2, nodeIndex := 3 }
    s.readReg .tblSym = 0x63 ∧ s.readReg .tblFreqLo = 2 ∧ s.readReg .tblClen = 2 ∧
    s.readReg .tblCodeLo = 2 ∧ s.readReg .nodeKind = 2 ∧ s.readReg .nodeFreqLo = 5 ∧
    s.readReg .nodeLeft = 2 ∧ s.readReg .nodeRight = 1 ∧ s.readReg .tblState = 7 ∧
    s.readReg .treeRoot = 4 := by decide

/-- V110: a reserved offset reads 0. -/
theorem test_reserved_offset : answers (step (hostReads State.reset 0x9C))
    (fun t => decide (t.response = .word 0)) = true := by decide

/-! ### Witnesses: for each statement, values that meet its hypotheses

The rules of the twelve commands have theirs above: `test_<command>` shows `…Checks s = none` (or the
conditions of success), `test_<command>_capacity`, `_corrupt`, `_errors`, `_empty` or `_step` the
failing clause. -/

/-- Source range [0x100, 0x110), destination range [0x200, 0x202), HUFF_PACK in flight. -/
def sBusy : State :=
  State.accept { State.reset with
    regs := { OperandRegs.reset with
      srcAddr := 0x100, srcLen := 0x10, dstAddr := 0x200, dstCap := 2 } } 5

/-- What is in flight in `sBusy`. -/
def fBusy : InFlight := { word := 5, latched := { regs := sBusy.regs, qfloor := false } }

/-- Source and destination range both [0x100, 0x110), FREQ_COUNT in flight. -/
def sBoth : State :=
  State.accept { State.reset with
    regs := { OperandRegs.reset with
      srcAddr := 0x100, srcLen := 0x10, dstAddr := 0x100, dstCap := 0x10 } } 1

/-- An illegal word in flight. -/
def sIllegal (w : Word) : State := State.reset.accept w

/-- The next state, where there is one. -/
def nextOf (o : Host.Outcome State Fault Refusal) : State :=
  match o with
  | .next t => t
  | .fault _ => State.reset
  | .refused _ => State.reset

theorem witness_DecodeIsTheOpcodeMap :
    0x0C ≤ (0x0C#8).toNat ∧ 0x0C ≤ (0xFF#8).toNat ∧ (0#24 ++ 0xFF#8) = 0x000000FF#32 := by decide

theorem witness_DecodeAcceptsExactlyTheEncodings :
    decode 0x0000000B#32 = .ok .clearTables ∧
    (0x00000100#32).extractLsb' 8 24 ≠ 0#24 ∧ (0x80000000#32).extractLsb' 8 24 ≠ 0#24 ∧
    (0x0000000B#32).extractLsb' 8 24 = 0#24 ∧ ((0x0000000B#32).extractLsb' 0 8).toNat ≤ 0x0B ∧
    (0x0000000C#32).extractLsb' 8 24 = 0#24 ∧ 0x0B < ((0x0000000C#32).extractLsb' 0 8).toNat := by
  decide

theorem witness_StepRunsTheDecodedCommand :
    sBusy.seq = .busy fBusy ∧ decode fBusy.word = .ok .huffPack ∧ EngineNext sBusy [] ∧
    EngineNext { sBusy with agenda := [.engine, .reset] } [.reset] :=
  ⟨rfl, rfl, .inl ⟨rfl, rfl⟩, .inr rfl⟩

/-- `withFetchWord` meets them for every word. -/
theorem withFetchWord_meets (s : State) (w : Nat) (e : Event) (es : List Event) :
    (∃ f, (State.reset.withFetchWord 32 w).seq = .busy f ∧
      f.word = BitVec.ofNat 32 (w % 2 ^ 32)) ∧
    EngineNext (State.reset.withFetchWord 32 w) [] ∧
    EngineNext ({ s with agenda := e :: es }.withFetchWord 32 w) (e :: es) :=
  ⟨⟨_, rfl, rfl⟩, .inl ⟨rfl, rfl⟩, .inr rfl⟩

theorem witness_IllegalWordReportsIllegalCommand :
    (0x00000100#32).extractLsb' 8 24 ≠ 0#24 ∧ 0x0C ≤ ((0x0000000C#32).extractLsb' 0 8).toNat ∧
    State.reset.busy = false ∧ Writes (hostWrites State.reset 0x08 0x100) 0x08 0x100 [] ∧
    Writes (hostWrites State.reset 0x08 0x0C) 0x08 0x0C [] ∧
    (∃ f, (sIllegal 0x100).seq = .busy f ∧ f.word.extractLsb' 8 24 ≠ 0#24) ∧
    (∃ f, (sIllegal 0x0C).seq = .busy f ∧ 0x0C ≤ (f.word.extractLsb' 0 8).toNat) ∧
    EngineNext (sIllegal 0x100) [] ∧ EngineNext (sIllegal 0x0C) [] :=
  ⟨by decide, by decide, rfl, rfl, rfl, ⟨_, rfl, by decide⟩, ⟨_, rfl, by decide⟩, .inl ⟨rfl, rfl⟩,
    .inl ⟨rfl, rfl⟩⟩

theorem witness_AcceptanceFollowsItsRule :
    (hostWrites State.reset 0x08 5).seq = .idle ∧ Writes (hostWrites State.reset 0x08 5) 0x08 5 [] :=
  ⟨rfl, rfl⟩

theorem witness_NoCommandIsAborted :
    (hostReads sBusy 0x0C).seq = .busy fBusy ∧ (∃ t, step (hostReads sBusy 0x0C) = .next t) ∧
    (hostWrites sBusy 0x08 7).seq = .busy fBusy ∧ Writes (hostWrites sBusy 0x08 7) 0x08 7 [] :=
  ⟨rfl, ⟨_, rfl⟩, rfl, rfl⟩

theorem witness_EngineTurnCompletesTheCommand :
    sBusy.seq = .busy fBusy ∧ EngineNext sBusy [] := ⟨rfl, .inl ⟨rfl, rfl⟩⟩

theorem witness_BusyEndsOnceTheAgendaIsServed :
    sBusy.busy = true ∧ (hostReads sBusy 0x0C).busy = true := by decide

theorem witness_OtherRegisterAccessIsRefused :
    (0 < 256 ∧ AccessSize.half ≠ .word) ∧ (255 < 256 ∧ 255 % 4 ≠ 0) ∧ (1 < 256 ∧ 1 % 4 ≠ 0) ∧
    { State.reset with agenda := [.host (.readReg .half 0)] }.agenda =
      .host (.readReg .half (State.reset.params.base + 0)) :: [] ∧
    { State.reset with agenda := [.host (.writeReg .word 255 7)] }.agenda =
      .host (.writeReg .word (State.reset.params.base + 255) 7) :: [] := by decide

theorem witness_HostReadFollowsItsRule :
    (0x00, Reg.id) ∈ registerMap ∧ (0x98, Reg.nodeSym) ∈ registerMap ∧
    (0x10, Reg.ctrl) ∈ registerMap ∧ (0x14, Reg.srcAddr) ∈ registerMap ∧
    State.reset.busy = false ∧ sBusy.busy = true ∧
    Reads (hostReads State.reset 0x98) 0x98 [] ∧ Reads (hostReads sBusy 0x10) 0x10 [] ∧
    Reads (hostReads sBusy 0x14) 0x14 [] ∧ Reads (hostReads State.reset 0x9C) 0x9C [] ∧
    Reads (hostReads State.reset 0xFC) 0xFC [] ∧ (Reg.qstep, 500#32) ∈ storedValues State.reset :=
  ⟨by decide, by decide, by decide, by decide, rfl, rfl, rfl, rfl, rfl, rfl, rfl, by decide⟩

/-- Every offset of a clause can be written, IDLE and BUSY. -/
theorem witness_HostWriteFollowsItsRule (off : Nat) (v : Word) :
    Writes (hostWrites State.reset off v) off v [] ∧ (hostWrites State.reset off v).busy = false ∧
    Writes (hostWrites sBusy off v) off v [] ∧ (hostWrites sBusy off v).busy = true ∧
    0x14 ∉ [0x08, 0x0C, 0x10] ∧ 0x24 ∉ [0x08, 0x0C, 0x10, 0x14, 0x18, 0x1C, 0x20, 0x28, 0x2C, 0x30,
      0x34, 0x38, 0x3C, 0x40, 0x64, 0x80] :=
  ⟨rfl, rfl, rfl, rfl, by decide, by decide⟩

theorem witness_IdentificationIsHardwired :
    Reads (hostReads sBusy 0x00) 0x00 [] ∧ Reads (hostReads sBusy 0x04) 0x04 [] ∧
    Writes (hostWrites State.reset 0x00 7) 0x00 7 [] := ⟨rfl, rfl, rfl⟩

theorem witness_CtrlWriteTakesEffectAtOnce : Writes (hostWrites sBusy 0x10 3) 0x10 3 [] := rfl

theorem witness_TableStatusRegisters :
    sTreeBuild.tables.treeValid = false ∧ (sCodeGen 2).tables.treeValid = true := by decide

/-- The last entry and one past it, with and without codes. -/
theorem witness_TableReadoutWindow :
    let s : State := { State.reset with tables := tablesT1, tblIndex := 2 }
    s.tables.ft[s.tblIndex.toNat]? = some ⟨0x63, 2⟩ ∧ s.tables.ctValid = true ∧
    s.tables.ct[s.tblIndex.toNat]? = some [true, false] ∧
    sTreeBuild.tables.ft[sTreeBuild.tblIndex.toNat]? = some ⟨0x61, 1⟩ ∧
    sTreeBuild.tables.ctValid = false ∧
    { s with tblIndex := 3 }.tables.ft.length ≤ { s with tblIndex := 3 }.tblIndex.toNat := by decide

/-- A leaf, the root, one past the root, and no valid tree. -/
theorem witness_TreeReadoutWindow :
    let s : State := { State.reset with tables := tablesT1, nodeIndex := 2 }
    s.tables.treeValid = true ∧ s.nodeIndex.toNat < 2 * s.tables.ft.length - 1 ∧
    s.tables.tree.nodes[s.nodeIndex.toNat]? = some (.leaf 0x63 2) ∧
    s.tables.tree.nodes[({ s with nodeIndex := 4 } : State).nodeIndex.toNat]? =
      some (.internal 9 0 3) ∧
    2 * s.tables.ft.length - 1 ≤ ({ s with nodeIndex := 5 } : State).nodeIndex.toNat ∧
    State.reset.tables.treeValid = false := by decide

theorem witness_IrqIsTheLevelOfEnableAndDone :
    sBusy.seq = .busy fBusy ∧ EngineNext sBusy [] ∧ (∃ t, step sBusy = .next t) ∧
    Writes (hostWrites State.reset 0x0C 2) 0x0C 2 [] ∧ (2#32).getLsbD 1 = true ∧
    (∃ t, step (hostWrites State.reset 0x0C 2) = .next t) ∧
    Writes (hostWrites State.reset 0x10 1) 0x10 1 [] ∧
    (∃ t, step (hostWrites State.reset 0x10 1) = .next t) ∧
    Writes (hostWrites State.reset 0x08 0) 0x08 0 [] ∧
    (∃ t, step (hostWrites State.reset 0x08 0) = .next t) ∧
    (∃ t, step { sBusy with agenda := [.reset] } = .next t) :=
  ⟨rfl, .inl ⟨rfl, rfl⟩, ⟨_, rfl⟩, rfl, by decide, ⟨_, rfl⟩, rfl, ⟨_, rfl⟩, rfl, ⟨_, rfl⟩, ⟨_, rfl⟩⟩

/-- The ends of both ranges, a byte outside, and a byte in both. -/
theorem witness_HostMemoryAccess :
    InSrc sBusy 0x100 ∧ InSrc sBusy 0x10F ∧ ¬ InDst sBusy 0x10F ∧ ¬ InSrc sBusy 0x110 ∧
    ¬ InDst sBusy 0x110 ∧ InDst sBusy 0x200 ∧ InDst sBusy 0x201 ∧ ¬ InSrc sBusy 0x201 ∧
    ¬ InDst sBusy 0x202 ∧ ¬ InSrc sBusy 0x202 ∧ InSrc sBoth 0x10F ∧ InDst sBoth 0x10F ∧
    0xFFFF < sBusy.params.memSize ∧ sBusy.busy = true ∧
    { sBusy with agenda := [.host (.readMem 0x201)] }.agenda = [.host (.readMem 0x201)] ∧
    { sBusy with agenda := [.host (.writeMem 0x10F 7)] }.agenda = [.host (.writeMem 0x10F 7)] := by
  decide

/-- One byte too long, and one byte of overlap at either end. -/
theorem witness_RangeChecksComeFirst :
    Instr.freqLoad ∈ readsMemory ∧ Instr.imgDecode ∈ writesMemory ∧
    SrcBad { State.reset with regs := { OperandRegs.reset with srcAddr := 0x10000, srcLen := 1 } } ∧
    DstBad { State.reset with regs := { OperandRegs.reset with dstAddr := 0xFFFF, dstCap := 2 } } ∧
    DstBad { State.reset with regs := { OperandRegs.reset with
      srcAddr := 0x100, srcLen := 16, dstAddr := 0x10F, dstCap := 1 } } ∧
    DstBad { State.reset with regs := { OperandRegs.reset with
      srcAddr := 0x10F, srcLen := 1, dstAddr := 0x100, dstCap := 16 } } := by decide

/-- The signed ends of R89 at two bytes, and the bytes next to a write. -/
theorem witness_BufferMemoryIsBigEndian :
    let m := State.reset.mem.writeBytes 0x100 [0x7F, 0xFF, 0x80, 0x00]
    1 ≤ 2 ∧ m.readBE 0x100 2 < 2 ^ (8 * 2 - 1) ∧ m.readSigned 0x100 2 = 32767 ∧
    2 ^ (8 * 2 - 1) ≤ m.readBE 0x102 2 ∧ m.readSigned 0x102 2 = -32768 ∧
    0 < 4 ∧ 3 < 4 ∧ 0xFF < 0x100 ∧ 0x100 + ([1, 2] : List Byte).length ≤ 0x102 := by decide

theorem witness_CountFreqCountsEverySymbolOnce :
    let syms : List Word := [0x62, 0x61, 0x62]
    syms.length < 2 ^ 30 ∧ 0x62#32 ∈ syms ∧ (countFreq syms)[0]? = some ⟨0x61, 1⟩ ∧
    (countFreq syms)[1]? = some ⟨0x62, 2⟩ ∧ (⟨0x62, 2⟩ : FreqEntry) ∈ countFreq syms := by decide

/-- A table at the bound of the sum, and a table of one entry of frequency 0. -/
theorem witness_BuildTreeIsGreedy :
    freqSum [⟨0x61, 1⟩, ⟨0x62, 0xFFFFFFFFFFFFFFFE⟩] = 2 ^ 64 - 1 ∧
    ([⟨0x61, 1⟩, ⟨0x62, 0xFFFFFFFFFFFFFFFE⟩] : List FreqEntry) ≠ [] ∧
    freqSum [⟨0, 0⟩] ≤ 2 ^ 64 - 1 ∧
    (ftV29[2]? = some ⟨0x63, 2⟩ ∧ ftV29.length ≤ 4 ∧ 4 < 2 * ftV29.length - 1) ∧
    (∀ j, j < 4 → ¬ IsChild treeV29 3 j) := by
  refine ⟨by decide, by decide, by decide, by decide, ?_⟩
  rintro j hj ⟨f, l, r, h, hx⟩
  match j, hj with
  | 0, _ => cases h
  | 1, _ => cases h
  | 2, _ => cases h
  | 3, _ => cases h; simp at hx

/-- IDLE with T1's tables: both flags set. -/
def sT1 : State := { State.reset with tables := tablesT1 }

/-- One symbol: the tree is a leaf, the code is 0 (10_state.md R45). -/
def sOne : State :=
  { State.reset with
    tables :=
      { ft := [⟨0x61, 7⟩], tree := { nodes := [.leaf 0x61 7], root := 0 }, treeValid := true
        ct := [[false]], ctValid := true } }

theorem inv_sT1 : sT1.Inv where
  params_wf := by decide
  mem_wf := by decide
  mem_inside := by decide
  ft_ascending := by decide
  ft_capacity := by decide
  ft_sum := by decide
  tree_built _ := by decide
  codes_built _ := by decide
  in_flight _ h := by cases h

theorem inv_sOne : sOne.Inv where
  params_wf := by decide
  mem_wf := by decide
  mem_inside := by decide
  ft_ascending := by decide
  ft_capacity := by decide
  ft_sum := by decide
  tree_built _ := by decide
  codes_built _ := by decide
  in_flight _ h := by cases h

theorem witness_ValidTreeArena :
    sT1.Inv ∧ sT1.tables.treeValid = true ∧ sT1.tables.ft[2]? = some ⟨0x63, 2⟩ ∧
    sT1.tables.ft.length ≤ 4 ∧ 4 < 2 * sT1.tables.ft.length - 1 ∧
    sOne.Inv ∧ sOne.tables.treeValid = true :=
  ⟨inv_sT1, rfl, rfl, by decide, by decide, inv_sOne, rfl⟩

theorem witness_ValidTreeSharesNoNode :
    sT1.Inv ∧ sT1.tables.treeValid = true ∧ 3 < sT1.tables.tree.nodes.length ∧
    3 ≠ sT1.tables.tree.root ∧ IsChild sT1.tables.tree 3 4 ∧
    sT1.tables.tree.nodes[4]? = some (.internal 9 0 3) :=
  ⟨inv_sT1, rfl, by decide, by decide, ⟨9, 0, 3, rfl, .inr rfl⟩, rfl⟩

theorem witness_CodesAreRootPaths :
    sOne.tables.ft.length = 1 ∧ ([⟨0, 0⟩, ⟨1, 0⟩] : List FreqEntry).length = 2 ∧
    (buildCodes (buildTree ftV29))[0]? = some [true, false] := by decide

theorem witness_ValidCodesArePrefixFree :
    sT1.Inv ∧ sT1.tables.ctValid = true ∧ sT1.tables.ct[1]? = some [true, true] ∧
    sT1.tables.ct[2]? = some [true, false] ∧
    sOne.Inv ∧ sOne.tables.ctValid = true ∧ sOne.tables.ft.length = 1 :=
  ⟨inv_sT1, rfl, rfl, rfl, inv_sOne, rfl, rfl⟩

theorem witness_CodeLengthsFillTheTree :
    2 ≤ ([⟨0, 0⟩, ⟨1, 0⟩] : List FreqEntry).length ∧ [true, false] ∈ buildCodes (buildTree ftV29) := by
  decide

theorem witness_PackedTextIsUniquelyDecodable :
    (∀ (j : Nat) (d : FreqEntry), tablesT1.ft[j]? = some d → d.sym = 0x63#32 → j = 2) ∧
    tablesT1.ft[2]? = some ⟨0x63, 2⟩ ∧ tablesT1.ct[2]? = some [true, false] ∧
    codeOf tablesT1.ft tablesT1.ct 0x63 = [true, false] ∧
    sT1.Inv ∧ sT1.tables.ctValid = true ∧ ⟨0x61, 4⟩ ∈ sT1.tables.ft ∧
    (∀ x ∈ [0x61#32, 0x63#32], ∃ c, IsCodeOf sT1.tables x c) := by
  refine ⟨?_, rfl, rfl, by decide, inv_sT1, rfl, by decide, ?_⟩
  · intro j d hd hs
    match j with
    | 0 => cases hd; cases hs
    | 1 => cases hd; cases hs
    | 2 => rfl
    | j + 3 => cases hd
  · intro x hx
    simp only [List.mem_cons, List.not_mem_nil, or_false] at hx
    rcases hx with rfl | rfl
    · exact ⟨[false], 0, ⟨0x61, 4⟩, rfl, rfl, rfl⟩
    · exact ⟨[true, false], 2, ⟨0x63, 2⟩, rfl, rfl, rfl⟩

/-- The symbols are packed in input order: "ac" and "ca" under T1's codes 0 and 10. -/
theorem test_pack_order :
    (pack [0x61, 0x63] tablesT1.ft tablesT1.ct).bytes = [0x40] ∧
    (pack [0x63, 0x61] tablesT1.ft tablesT1.ct).bytes = [0x80] := by decide

/-- Stream bit 8 is the top bit of byte 1; bit 15 is padding. -/
theorem witness_PackBitsIsMsbFirst :
    let bits := [false, false, false, false, false, false, false, false, true]
    bits[8]? = some true ∧ (packBits bits).bytes[8 / 8]? = some 0x80 ∧ bits.length ≤ 15 ∧
    (packBits bits).bytes[15 / 8]? = some 0x80 := by decide

/-- R161's corner case: 256 equal pixels give runs of 255 and 1, of one color. -/
theorem witness_ImageRunsAreCappedAndExact :
    List.replicate 256 (⟨1, 2, 3⟩ : Pixel) ≠ [] ∧
    (rleImg (List.replicate 256 ⟨1, 2, 3⟩))[0]? = some (⟨1, 2, 3⟩, 255) ∧
    (rleImg (List.replicate 256 ⟨1, 2, 3⟩))[1]? = some (⟨1, 2, 3⟩, 1) := by decide +kernel

theorem witness_AudioRunsAreMaximal :
    ([5, 5, -1] : List Int) ≠ [] ∧ (rleAud [5, 5, -1])[0]? = some (5, 2) ∧
    (rleAud [5, 5, -1])[1]? = some (-1, 1) := by decide

/-- The ends of the ranges of s and q. -/
theorem witness_QuantizeRoundsByItsMode :
    (-32768 : Int) ≤ -32768 ∧ (-32768 : Int) ≤ 32767 ∧ 1 ≤ 2 ^ 31 - 1 ∧
    quantize (-32768) 500 true = -33000 ∧ quantize (-32768) (2 ^ 31 - 1) true = -(2 ^ 31 - 1) ∧
    quantize (-1) 500 false = 0 ∧ (4 : Int) ∣ -32768 := by decide

/-- T2's encoding, and an IMG_DECODE in flight on its artifact. -/
def sImgArtifact : State := nextOf (exec .imgEncode (sImgEncode 20))

def uImg : State :=
  State.accept { sImgArtifact with
    regs := { sImgArtifact.regs with srcAddr := 0x200, srcLen := 20, dstAddr := 0x300, dstCap := 15 } } 8

theorem witness_ImageRoundTripIsLossless :
    exec .imgEncode (sImgEncode 20) = .next sImgArtifact ∧ sImgArtifact.status.err = .none ∧
    src uImg = dst (sImgEncode 20) ∧ len uImg = sImgArtifact.outLen.toNat ∧
    (∀ a, InSrc uImg a → uImg.mem.read a = sImgArtifact.mem.read a) ∧
    ¬ SrcBad uImg ∧ ¬ DstBad uImg ∧ len (sImgEncode 20) ≤ cap uImg :=
  ⟨rfl, by decide, by decide, by decide, fun _ _ => rfl, by decide, by decide, by decide⟩

/-- V71's encoding (floor mode), and an AUD_DECODE in flight on its artifact. -/
def sAudArtifact (qfloor : Bool) (q : Word) (c : Nat) : State :=
  nextOf (exec .audEncode (sAudEncode qfloor q c))

def uAud (qfloor : Bool) (q : Word) (c : Nat) : State :=
  let t := sAudArtifact qfloor q c
  State.accept { t with
    regs := { t.regs with srcAddr := 0x500, srcLen := t.outLen, dstAddr := 0x600, dstCap := 10 } } 10

/-- Floor mode, truncation mode, and step 1. -/
theorem witness_AudioRoundTripIsQuantization (f : Bool) (q : Word)
    (h : (f, q) ∈ [(true, 500#32), (false, 500#32), (false, 1#32)]) :
    exec .audEncode (sAudEncode f q 60) = .next (sAudArtifact f q 60) ∧
    (sAudArtifact f q 60).status.err = .none ∧
    src (uAud f q 60) = dst (sAudEncode f q 60) ∧
    len (uAud f q 60) = (sAudArtifact f q 60).outLen.toNat ∧
    (∀ a, InSrc (uAud f q 60) a → (uAud f q 60).mem.read a = (sAudArtifact f q 60).mem.read a) ∧
    ¬ SrcBad (uAud f q 60) ∧ ¬ DstBad (uAud f q 60) ∧ len (sAudEncode f q 60) ≤ cap (uAud f q 60) := by
  simp only [List.mem_cons, Prod.mk.injEq, List.not_mem_nil, or_false] at h
  rcases h with ⟨rfl, rfl⟩ | ⟨rfl, rfl⟩ | ⟨rfl, rfl⟩ <;>
    exact ⟨rfl, by decide, by decide, by decide, fun _ _ => rfl, by decide, by decide, by decide⟩

/-- V38's encoding, and a FREQ_LOAD in flight on its artifact. -/
def sTextArtifact : State := nextOf (exec .textEncode (sTextEncode 46))

def uText : State :=
  State.accept { sTextArtifact with
    regs := { sTextArtifact.regs with srcAddr := 0x400, srcLen := 46 } } 2

theorem witness_ArtifactRebuildsTheEncodersTables :
    exec .textEncode (sTextEncode 46) = .next sTextArtifact ∧ sTextArtifact.status.err = .none ∧
    uText.params = (sTextEncode 46).params ∧ src uText = dst (sTextEncode 46) ∧
    len uText = sTextArtifact.outLen.toNat ∧
    (∀ a, InSrc uText a → uText.mem.read a = sTextArtifact.mem.read a) ∧ ¬ SrcBad uText :=
  ⟨rfl, by decide, rfl, by decide, by decide, fun _ _ => rfl, by decide⟩

theorem witness_TextEncodeTablesAreTheStepwiseTables :
    exec .textEncode (sTextEncode 46) = .next sTextArtifact ∧ sTextArtifact.status.err = .none :=
  ⟨rfl, by decide⟩

/-- A success, a failure, a byte outside the output, and a memory that differs outside the source. -/
theorem witness_CommandsStayInTheirRanges :
    (∃ t, exec .huffPack (sHuffPack 1) = .next t ∧ t.outLen.toNat = 1) ∧
    (∃ t, exec .huffPack (sHuffPack 0) = .next t ∧ t.status.err ≠ .none) ∧
    0x201 < 0x10000 ∧ dst (sHuffPack 1) + 1 ≤ 0x201 ∧
    (∀ a, InSrc (sHuffPack 1) a →
      ((sHuffPack 1).mem.write 0x300 7).read a = (sHuffPack 1).mem.read a) := by
  refine ⟨⟨_, rfl, by decide⟩, ⟨_, rfl, by decide⟩, by decide, by decide, ?_⟩
  intro a h
  have hl : src (sHuffPack 1) + len (sHuffPack 1) = 0x110 := by decide
  exact Memory.read_write_ne _ _ (by have := h.2; omega)

theorem witness_FailedCommandChangesStatusAndOutLenOnly :
    ∃ t, exec .huffPack (sHuffPack 0) = .next t ∧ t.status.err ≠ .none ∧
      (sHuffPack 0).status.sat = false := ⟨_, rfl, by decide, by decide⟩

theorem witness_ValidityFlagsFollowTheirTable :
    sT1.Inv ∧ sT1.tables.ctValid = true ∧
    (∃ t, exec .codeGen (sCodeGen 1) = .next t ∧ t.status.err ≠ .none) ∧
    (∃ t, exec .codeGen (sCodeGen 2) = .next t ∧ t.status.err = .none) ∧
    (∃ t, exec .freqLoad (sFreqLoad 0xFE) = .next t ∧ t.status.err = .none) ∧
    (∃ t, exec .treeBuild sTreeBuild = .next t ∧ t.status.err = .none) :=
  ⟨inv_sT1, rfl, ⟨_, rfl, by decide⟩, ⟨_, rfl, by decide⟩, ⟨_, rfl, by decide⟩, ⟨_, rfl, by decide⟩⟩

/-- An illegal word, and a legal one. -/
theorem witness_ErrorCodesAndWhoReportsThem :
    (∃ f t, (sIllegal 0x0C).seq = .busy f ∧ EngineNext (sIllegal 0x0C) [] ∧
      step (sIllegal 0x0C) = .next t ∧ t.status.err = .illegalCommand ∧
      decode f.word = .error .reservedOpcode) ∧
    (∃ t, step sBusy = .next t ∧ t.status.err ≠ .illegalCommand) :=
  ⟨⟨_, _, rfl, .inl ⟨rfl, rfl⟩, rfl, rfl, by decide⟩, ⟨_, rfl, by decide⟩⟩

theorem witness_CommandFrame :
    Instr.nop ≠ .audDecode ∧ Instr.nop ∉ writesMemory ∧ Instr.imgEncode ∉ [Instr.huffPack, .textEncode] ∧
    Instr.freqLoad ∈ [Instr.nop, .freqLoad, .treeBuild, .codeGen, .clearTables] := by decide

theorem witness_ArtifactCommandsIgnoreOldTables :
    Instr.textEncode ∈ [Instr.textEncode, .imgEncode, .imgDecode, .audEncode, .audDecode] ∧
    (∃ t, exec .textEncode (sTextEncode 46) = .next t ∧ t.status.err = .none) ∧
    (∃ t, exec .imgEncode (sImgEncode 20) = .next t) :=
  ⟨by decide, ⟨_, rfl, by decide⟩, ⟨_, rfl⟩⟩

/-- The ends of the parameter ranges (00_scope.md R7). -/
theorem witness_ResetMeetsTheInvariant :
    ({ memSize := 1, maxSymbols := 1, maxCodeLen := 1, base := 0 } : Params).wf = true ∧
    ({ memSize := 2 ^ 32, maxSymbols := 2 ^ 31, maxCodeLen := 64, base := 4096 } : Params).wf =
      true := by decide

/-- IDLE with a CMD write next, and BUSY with the engine next. -/
theorem witness_StepKeepsTheInvariant :
    (hostWrites sT1 0x08 5).Inv ∧ (∃ t, step (hostWrites sT1 0x08 5) = .next t) ∧
    (sT1.accept 5).Inv ∧ (∃ t, step (sT1.accept 5) = .next t) :=
  ⟨{ inv_sT1 with in_flight := fun _ h => by cases h }, ⟨_, rfl⟩,
    { inv_sT1 with in_flight := fun f h => by cases h; decide }, ⟨_, rfl⟩⟩

theorem witness_ParametersNeverChange :
    (∃ t, step sBusy = .next t) ∧ State.reset.seq = .idle ∧ EngineNext State.reset [] :=
  ⟨⟨_, rfl⟩, rfl, .inl ⟨rfl, rfl⟩⟩

theorem witness_ResetGivesTheResetColumn :
    { sT1 with agenda := [.reset] }.agenda = .reset :: [] ∧
    { sT1 with agenda := [.reset] }.busy = false ∧ (Reg.treeRoot, 0xFFFFFFFF#32) ∈ resetColumn := by
  decide

theorem witness_ResetDuringACommand :
    { sBusy with agenda := [.reset] }.seq = .busy fBusy ∧ InDst sBusy 0x201 ∧ ¬ InSrc sBusy 0x201 ∧
    0x201 < sBusy.params.memSize ∧ InSrc sBoth 0x10F ∧ ¬ InDst sBusy 0x202 := by decide

end Sys2Proof.Tests
end

section
/-! The statements of 00_scope.md: the memory primitives (R10) and the parameters (R7). -/

namespace Sys2Proof.Machine

/-! ### Big-endian numbers, byte by byte (00_scope.md R10) -/

/-- Byte `i` of the `n` bytes of `v` has weight `256 ^ (n - 1 - i)`. -/
theorem getElem?_toBE {n i : Nat} (v : Nat) (h : i < n) :
    (toBE n v)[i]? = some (BitVec.ofNat 8 (v / 256 ^ (n - 1 - i))) := by
  induction n generalizing i with
  | zero => omega
  | succ n ih =>
    cases i with
    | zero => simp [toBE]
    | succ i =>
      have hw : n + 1 - 1 - (i + 1) = n - 1 - i := by omega
      rw [hw, ← ih (by omega)]
      simp [toBE]

theorem signedOf_of_lt {bits v : Nat} (h : v < 2 ^ (bits - 1)) : signedOf bits v = v := if_pos h

theorem signedOf_of_le {bits v : Nat} (h : 2 ^ (bits - 1) ≤ v) :
    signedOf bits v = (v : Int) - 2 ^ bits := if_neg (Nat.not_lt.mpr h)

@[simp] theorem Memory.readBE_zero (m : Memory) (a : Nat) : m.readBE a 0 = 0 := rfl

theorem Memory.bytes_succ (m : Memory) (a n : Nat) :
    m.bytes a (n + 1) = m.read a :: m.bytes (a + 1) n := by
  simp [Memory.bytes, List.range_succ_eq_map, Nat.add_comm, Nat.add_left_comm]

/-- The lowest address is the most significant byte. -/
theorem Memory.readBE_succ (m : Memory) (a n : Nat) :
    m.readBE a (n + 1) = (m.read a).toNat * 256 ^ n + m.readBE (a + 1) n := by
  simp [Memory.readBE, Memory.bytes_succ, beNat_cons]

theorem Memory.readBE_writeBytes (m : Memory) (a : Nat) (bs : List Byte) :
    (m.writeBytes a bs).readBE a bs.length = beNat bs := by
  rw [Memory.readBE, Memory.bytes_writeBytes]

/-- A number written in `n` bytes reads back modulo `256 ^ n`. -/
theorem Memory.readBE_writeBytes_toBE (m : Memory) (a n v : Nat) :
    (m.writeBytes a (toBE n v)).readBE a n = v % 256 ^ n := by
  simpa [beNat_toBE] using m.readBE_writeBytes a (toBE n v)

/-! ### What a step leaves unchanged -/

/-- `u` differs from `s` in operand and result registers, tables, buffer memory and STATUS.SAT at
most: what a command writes before its completion (30_encoding.md R83). -/
structure State.SameFrame (s u : State) : Prop where
  params : u.params = s.params
  cmd : u.cmd = s.cmd
  status : u.status = { s.status with sat := u.status.sat }
  ctrl : u.ctrl = s.ctrl
  outLen : u.outLen = s.outLen
  tblIndex : u.tblIndex = s.tblIndex
  nodeIndex : u.nodeIndex = s.nodeIndex
  seq : u.seq = s.seq
  agenda : u.agenda = s.agenda
  response : u.response = s.response
  draws : u.draws = s.draws

theorem State.SameFrame.refl (s : State) : s.SameFrame s := by constructor <;> rfl

theorem State.SameFrame.storeBytes {s u : State} (h : s.SameFrame u) (bs : List Byte) :
    s.SameFrame (u.storeBytes bs) := { h with }

theorem State.SameFrame.setTables {s u : State} (h : s.SameFrame u) (t : Tables) :
    s.SameFrame (u.setTables t) := { h with }

theorem State.SameFrame.setResult {s u : State} (h : s.SameFrame u) (r : ResultRegs) :
    s.SameFrame (u.setResult r) := { h with }

theorem State.SameFrame.setRegs {s u : State} (h : s.SameFrame u) (r : OperandRegs) :
    s.SameFrame (u.setRegs r) := { h with }

theorem State.SameFrame.setSat {s u : State} (h : s.SameFrame u) (b : Bool) :
    s.SameFrame (u.setSat b) :=
  { h with status := by rw [State.setSat_status, h.status] }

/-- A successful command writes only through the five state updates. -/
theorem resultOf_ok_sameFrame {i : Instr} {s u : State} {out : Nat}
    (h : resultOf i s = .ok (u, out)) : s.SameFrame u := by
  have hs := State.SameFrame.refl s
  cases i with
  | nop => obtain ⟨rfl, -⟩ := nop_ok.mp h; exact hs
  | freqCount =>
    obtain ⟨-, -, -, -, rfl, -⟩ := freqCount_ok.mp h
    exact (hs.setTables _).setResult _
  | freqLoad => obtain ⟨-, -, -, -, -, -, -, rfl, -⟩ := freqLoad_ok.mp h; exact hs.setTables _
  | treeBuild => obtain ⟨-, rfl, -⟩ := treeBuild_ok.mp h; exact hs.setTables _
  | codeGen => obtain ⟨-, -, rfl, -⟩ := codeGen_ok.mp h; exact hs.setTables _
  | huffPack =>
    obtain ⟨-, -, -, -, -, -, -, -, rfl, -⟩ := huffPack_ok.mp h
    exact (hs.storeBytes _).setResult _
  | textEncode =>
    obtain ⟨-, -, -, -, -, -, -, -, rfl, -⟩ := textEncode_ok.mp h
    exact ((hs.storeBytes _).setTables _).setResult _
  | imgEncode =>
    obtain ⟨-, -, -, -, -, -, -, rfl, -⟩ := imgEncode_ok.mp h
    exact (hs.storeBytes _).setResult _
  | imgDecode =>
    obtain ⟨-, -, -, _, -, -, rfl, -⟩ := imgDecode_ok.mp h
    exact ((hs.storeBytes _).setRegs _).setResult _
  | audEncode =>
    obtain ⟨-, -, -, -, -, -, -, -, -, -, rfl, -⟩ := audEncode_ok.mp h
    exact (hs.storeBytes _).setResult _
  | audDecode =>
    obtain ⟨-, -, -, _, -, -, rfl, -⟩ := audDecode_ok.mp h
    exact (((hs.storeBytes _).setRegs _).setResult _).setSat _
  | clearTables => obtain ⟨rfl, -⟩ := clearTables_ok.mp h; exact hs.setTables _

theorem exec_params {i : Instr} {s t : State} (h : exec i s = .next t) : t.params = s.params := by
  obtain ⟨u, out, hr, rfl⟩ | ⟨e, -, rfl⟩ := exec_cases h
  · exact (resultOf_ok_sameFrame hr).params
  · rfl

theorem engineTurn_params {s t : State} (h : engineTurn s = .next t) : t.params = s.params := by
  obtain ⟨-, rfl⟩ | ⟨f, -, ⟨i, -, hi⟩ | ⟨-, rfl⟩⟩ := engineTurn_cases h
  · rfl
  · exact exec_params hi
  · rfl

theorem hostWriteReg_params (s : State) (off : Nat) (v : Word) :
    (hostWriteReg s off v).params = s.params := by
  obtain h | ⟨-, h⟩ | ⟨-, h⟩ | h | h | ⟨-, g, i, j, h⟩ := hostWriteReg_cases s off v <;>
    simp [h]

theorem hostStep_params {s t : State} {a : HostAction} (h : hostStep s a = .next t) :
    t.params = s.params := by
  obtain ⟨r, rfl⟩ | rfl | rfl | ⟨off, v, rfl⟩ | ⟨x, b, -, -, rfl⟩ := hostStep_cases h
  · rfl
  · rfl
  · rfl
  · exact hostWriteReg_params s off v
  · rfl

theorem step_params {s t : State} (h : step s = .next t) : t.params = s.params := by
  obtain h | rfl | ⟨a, h⟩ := step_cases h
  · rw [engineTurn_params h, State.popEvent_params]
  · rfl
  · rw [hostStep_params h, State.popEvent_params]

/-- When the engine moves next, the step is its turn on the remaining agenda. -/
theorem step_of_engineNext {s : State} {es : List Event} (h : Spec.EngineNext s es) :
    step s = engineTurn { s with agenda := es } := by
  obtain ⟨hs, rfl⟩ | hs := h
  · rw [step_of_nil hs, ← hs]
  · rw [step_of_engine hs, popEvent_of_cons hs]

end Sys2Proof.Machine

namespace Sys2Proof.Proofs

open Sys2Proof Sys2Proof.Machine

/-- Settles O21: reads by the recursion on the number of bytes, writes by the byte that `toBE` puts at
each address. -/
theorem bufferMemoryIsBigEndian : Obligations.BufferMemoryIsBigEndian :=
  ⟨Memory.readBE_zero, Memory.readBE_succ, fun _ _ _ _ => ⟨signedOf_of_lt, signedOf_of_le⟩,
    length_toBE, fun m _ _ v _ hi => m.read_writeBytes_inside (getElem?_toBE v hi),
    Memory.readBE_writeBytes_toBE, fun m _ _ _ h => m.read_writeBytes_outside h⟩

/-- Settles O58: every event keeps the parameters, and the engine's turn while IDLE is the identity. -/
theorem parametersNeverChange : Obligations.ParametersNeverChange :=
  ⟨fun _ _ h => step_params h,
    fun s es hs h => by rw [step_of_engineNext h, engineTurn_idle (s := { s with agenda := es }) hs]⟩

end Sys2Proof.Proofs
end

section
/-! The tree that `buildTree` makes (40_huffman_model.md R115): what the loop of merges keeps, and what
10_state.md R42 and R43 say of the arena. -/

namespace Sys2Proof.Machine

/-! ### The priority queue and one merge -/

theorem popMin_eq_none {nodes : List Node} {q : List Nat} : popMin nodes q = none ↔ q = [] := by
  cases q with
  | nil => simp [popMin]
  | cons x xs => simp only [popMin]; split <;> [skip; split] <;> simp

/-- Popping takes one index out of the queue and loses no other. -/
theorem popMin_perm {nodes : List Node} {q rest : List Nat} {m : Nat}
    (h : popMin nodes q = some (m, rest)) : q.Perm (m :: rest) := by
  induction q generalizing m rest with
  | nil => cases h
  | cons x xs ih =>
    simp only [popMin] at h
    split at h
    next hp =>
      obtain ⟨rfl, rfl⟩ : x = m ∧ [] = rest := by simpa using h
      rw [popMin_eq_none.mp hp]
    next m' rest' hp =>
      split at h
      · obtain ⟨rfl, rfl⟩ : x = m ∧ xs = rest := by simpa using h
        exact .refl _
      · obtain ⟨rfl, rfl⟩ : m' = m ∧ x :: rest' = rest := by simpa using h
        exact ((ih hp).cons x).trans (.swap _ _ _)

/-- What one merge does: two pops, then the new node stands last in the arena and in the queue. -/
theorem mergeStep_eq_some {nodes nodes' : List Node} {q q' : List Nat} :
    mergeStep nodes q = some (nodes', q') ↔
      ∃ a q₁ b rest, popMin nodes q = some (a, q₁) ∧ popMin nodes q₁ = some (b, rest) ∧
        nodes' = nodes ++ [.internal (nodeFreq nodes a + nodeFreq nodes b) a b] ∧
        q' = rest ++ [nodes.length] := by
  unfold mergeStep
  constructor
  · intro h
    split at h
    · cases h
    next a q₁ ha =>
      split at h
      · cases h
      next b rest hb =>
        injection h with h
        injection h with h₁ h₂
        exact ⟨a, q₁, b, rest, ha, hb, h₁.symm, h₂.symm⟩
  · rintro ⟨a, q₁, b, rest, ha, hb, rfl, rfl⟩
    simp [ha, hb]

/-- A merge takes two indices out of the queue and loses no other. -/
theorem mergeStep_perm {nodes nodes' : List Node} {q q' : List Nat}
    (h : mergeStep nodes q = some (nodes', q')) :
    ∃ a b rest, q.Perm (a :: b :: rest) ∧
      nodes' = nodes ++ [.internal (nodeFreq nodes a + nodeFreq nodes b) a b] ∧
      q' = rest ++ [nodes.length] := by
  obtain ⟨a, q₁, b, rest, ha, hb, hn, hq⟩ := mergeStep_eq_some.mp h
  exact ⟨a, b, rest, (popMin_perm ha).trans ((popMin_perm hb).cons a), hn, hq⟩

/-- A merge is possible while two nodes are queued. -/
theorem exists_mergeStep {nodes : List Node} {q : List Nat} (h : 2 ≤ q.length) :
    ∃ nodes' q', mergeStep nodes q = some (nodes', q') := by
  obtain ⟨⟨a, q₁⟩, ha⟩ : ∃ p, popMin nodes q = some p :=
    Option.ne_none_iff_exists'.mp fun hn => by simp [popMin_eq_none.mp hn] at h
  have hl := (popMin_perm ha).length_eq
  obtain ⟨⟨b, rest⟩, hb⟩ : ∃ p, popMin nodes q₁ = some p :=
    Option.ne_none_iff_exists'.mp fun hn => by simp [popMin_eq_none.mp hn] at hl; omega
  exact ⟨_, _, mergeStep_eq_some.mpr ⟨a, q₁, b, rest, ha, hb, rfl, rfl⟩⟩

/-- One merge takes one node out of the queue. -/
theorem length_queue_mergeStep {nodes nodes' : List Node} {q q' : List Nat}
    (h : mergeStep nodes q = some (nodes', q')) : q'.length + 1 = q.length := by
  obtain ⟨a, b, rest, hp, -, rfl⟩ := mergeStep_perm h
  simp [hp.length_eq]

/-- What every merge keeps holds when the loop ends, with one node queued. -/
theorem mergeLoop_keeps {P : List Node → List Nat → Prop}
    (hstep : ∀ nodes q nodes' q', P nodes q → mergeStep nodes q = some (nodes', q') → P nodes' q')
    {k : Nat} {nodes : List Node} {q : List Nat} (h : P nodes q) (hq : q.length = k + 1) :
    ∃ x, P (mergeLoop k nodes q) [x] := by
  induction k generalizing nodes q with
  | zero =>
    obtain ⟨x, rfl⟩ := List.length_eq_one_iff.mp hq
    exact ⟨x, h⟩
  | succ k ih =>
    obtain ⟨nodes', q', hm⟩ := exists_mergeStep (nodes := nodes) (q := q) (by omega)
    simp only [mergeLoop, hm]
    exact ih (hstep _ _ _ _ h hm) (by have := length_queue_mergeStep hm; omega)

/-! ### Parents and children -/

/-- `x` is a child of node `k` of the arena: `Spec.IsChild`, said of the list of nodes. -/
def HasChild (nodes : List Node) (k x : Nat) : Prop :=
  ∃ f l r, nodes[k]? = some (.internal f l r) ∧ (x = l ∨ x = r)

theorem isChild_iff {t : Tree} {x k : Nat} : Spec.IsChild t x k ↔ HasChild t.nodes k x := Iff.rfl

theorem HasChild.lt_length {nodes : List Node} {k x : Nat} (h : HasChild nodes k x) :
    k < nodes.length := by
  obtain ⟨f, l, r, hk, -⟩ := h
  exact (List.getElem?_eq_some_iff.mp hk).1

/-- A merge makes its two nodes children of the new one and changes no other parent. -/
theorem hasChild_append_internal {nodes : List Node} {f : DWord} {a b k x : Nat} :
    HasChild (nodes ++ [.internal f a b]) k x ↔
      HasChild nodes k x ∨ (k = nodes.length ∧ (x = a ∨ x = b)) := by
  constructor
  · rintro ⟨g, l, r, hk, hx⟩
    rcases Nat.lt_or_ge k nodes.length with hlt | hge
    · exact .inl ⟨g, l, r, by rwa [List.getElem?_append_left hlt] at hk, hx⟩
    · obtain ⟨hl, hk⟩ := List.getElem?_eq_some_iff.mp hk
      obtain rfl : k = nodes.length := by simp at hl; omega
      obtain ⟨-, rfl, rfl⟩ : f = g ∧ a = l ∧ b = r := by simpa using hk
      exact .inr ⟨rfl, hx⟩
  · rintro (h | ⟨rfl, hx⟩)
    · obtain ⟨g, l, r, hk, hx⟩ := id h
      exact ⟨g, l, r, by rwa [List.getElem?_append_left h.lt_length], hx⟩
    · exact ⟨f, a, b, by simp, hx⟩

/-! ### The forest that the loop keeps -/

/-- The arena while `buildTree ft` merges: the leaves of `ft`, then internal nodes over earlier ones;
the queue `q` holds the roots, and every other node has one parent. -/
structure Forest (ft : List FreqEntry) (nodes : List Node) (q : List Nat) : Prop where
  leaves : leavesOf ft <+: nodes
  internal : ∀ k, ft.length ≤ k → k < nodes.length →
    ∃ f l r, nodes[k]? = some (.internal f l r) ∧ l < k ∧ r < k ∧ l ≠ r
  count : nodes.length + q.length = 2 * ft.length
  queue_nodup : q.Nodup
  queue_lt : ∀ x ∈ q, x < nodes.length
  queue_root : ∀ x ∈ q, ∀ k, ¬ HasChild nodes k x
  parent : ∀ x, x < nodes.length → x ∉ q → ∃ k, HasChild nodes k x ∧ ∀ j, HasChild nodes j x → j = k

theorem getElem?_leavesOf {ft : List FreqEntry} {i : Nat} :
    (leavesOf ft)[i]? = ft[i]?.map fun e => .leaf e.sym e.freq := by
  simp [leavesOf]

@[simp] theorem length_leavesOf (ft : List FreqEntry) : (leavesOf ft).length = ft.length := by
  simp [leavesOf]

theorem Forest.getElem?_leaf {ft : List FreqEntry} {nodes : List Node} {q : List Nat}
    (h : Forest ft nodes q) {i : Nat} (hi : i < ft.length) :
    nodes[i]? = some (.leaf ft[i].sym ft[i].freq) := by
  obtain ⟨tail, rfl⟩ := h.leaves
  rw [List.getElem?_append_left (by simpa using hi), getElem?_leavesOf, List.getElem?_eq_getElem hi]
  rfl

/-- Internal nodes stand behind the leaves. -/
theorem Forest.le_of_internal {ft : List FreqEntry} {nodes : List Node} {q : List Nat}
    (h : Forest ft nodes q) {k l r : Nat} {f : DWord} (hk : nodes[k]? = some (.internal f l r)) :
    ft.length ≤ k := by
  by_contra hlt
  rw [h.getElem?_leaf (by omega)] at hk
  cases hk

/-- Children are distinct and made before their parent. -/
theorem Forest.children {ft : List FreqEntry} {nodes : List Node} {q : List Nat}
    (h : Forest ft nodes q) {k l r : Nat} {f : DWord} (hk : nodes[k]? = some (.internal f l r)) :
    l < k ∧ r < k ∧ l ≠ r := by
  obtain ⟨g, l', r', hk', hc⟩ :=
    h.internal k (h.le_of_internal hk) (List.getElem?_eq_some_iff.mp hk).1
  rw [hk] at hk'
  cases hk'
  exact hc

theorem Forest.child_lt {ft : List FreqEntry} {nodes : List Node} {q : List Nat}
    (h : Forest ft nodes q) {k x : Nat} (hx : HasChild nodes k x) : x < k := by
  obtain ⟨f, l, r, hk, hx⟩ := hx
  obtain ⟨hl, hr, -⟩ := h.children hk
  omega

/-- Before the first merge every leaf is a root. -/
theorem forest_leaves (ft : List FreqEntry) : Forest ft (leavesOf ft) (List.range ft.length) where
  leaves := List.prefix_rfl
  internal k hk hlt := by simp at hlt; omega
  count := by simp; omega
  queue_nodup := List.nodup_range
  queue_lt x hx := by simpa using hx
  queue_root x _ k := by
    rintro ⟨f, l, r, hk, -⟩
    rw [getElem?_leavesOf] at hk
    cases hf : ft[k]? <;> simp [hf] at hk
  parent x hx hq := absurd (by simpa using hx) hq

section
variable {ft : List FreqEntry} {nodes : List Node} {q rest : List Nat} {a b : Nat} {f : DWord}
  (h : Forest ft nodes q) (hp : q.Perm (a :: b :: rest))
include h hp

/-- Two popped indices and the rest of the queue are distinct nodes of the arena. -/
theorem Forest.popped : a < nodes.length ∧ b < nodes.length ∧ (∀ x ∈ rest, x < nodes.length) ∧
    a ≠ b ∧ a ∉ rest ∧ b ∉ rest ∧ rest.Nodup := by
  have hlt : ∀ x, x = a ∨ x = b ∨ x ∈ rest → x < nodes.length := fun x hx =>
    h.queue_lt x (hp.mem_iff.mpr (by simpa using hx))
  obtain ⟨⟨hab, ha⟩, hb, hrest⟩ : (a ≠ b ∧ a ∉ rest) ∧ b ∉ rest ∧ rest.Nodup := by
    simpa using hp.nodup_iff.mp h.queue_nodup
  exact ⟨hlt a (by simp), hlt b (by simp), fun x hx => hlt x (by simp [hx]), hab, ha, hb, hrest⟩

theorem Forest.merge_queue_root :
    ∀ x ∈ rest ++ [nodes.length], ∀ k, ¬ HasChild (nodes ++ [.internal f a b]) k x := by
  obtain ⟨ha, hb, -, -, ha_rest, hb_rest, -⟩ := h.popped hp
  intro x hx k hc
  rcases hasChild_append_internal.mp hc with hc | ⟨-, hxab⟩ <;>
    rcases List.mem_append.mp hx with hx | hx
  · exact h.queue_root x (hp.mem_iff.mpr (by simp [hx])) k hc
  · have := h.child_lt hc
    have := hc.lt_length
    have := List.mem_singleton.mp hx
    omega
  · rcases hxab with rfl | rfl
    exacts [ha_rest hx, hb_rest hx]
  · have := List.mem_singleton.mp hx
    omega

/-- The two popped nodes get the new node as their parent; older children keep theirs. -/
theorem Forest.merge_parent : ∀ x, x < nodes.length + 1 → x ∉ rest ++ [nodes.length] →
    ∃ k, HasChild (nodes ++ [.internal f a b]) k x ∧
      ∀ j, HasChild (nodes ++ [.internal f a b]) j x → j = k := by
  intro x hx hxq
  obtain ⟨hx_rest, hx_new⟩ : x ∉ rest ∧ x ≠ nodes.length := by simpa using hxq
  have hmem : x ∈ q ↔ x = a ∨ x = b := by simp [hp.mem_iff, hx_rest]
  by_cases hx_q : x ∈ q
  · refine ⟨nodes.length, hasChild_append_internal.mpr (.inr ⟨rfl, hmem.mp hx_q⟩), fun j hj => ?_⟩
    rcases hasChild_append_internal.mp hj with hj | ⟨rfl, -⟩
    exacts [absurd hj (h.queue_root x hx_q j), rfl]
  · obtain ⟨k, hk, huniq⟩ := h.parent x (by omega) hx_q
    refine ⟨k, hasChild_append_internal.mpr (.inl hk), fun j hj => ?_⟩
    rcases hasChild_append_internal.mp hj with hj | ⟨-, hxab⟩
    exacts [huniq j hj, absurd (hmem.mpr hxab) hx_q]

/-- Merging two popped roots keeps the forest. -/
theorem Forest.merge : Forest ft (nodes ++ [.internal f a b]) (rest ++ [nodes.length]) := by
  obtain ⟨ha, hb, hlt, hab, -, -, hrest⟩ := h.popped hp
  exact
  { leaves := h.leaves.trans (List.prefix_append _ _)
    internal := fun k hk hkl => by
      rcases Nat.lt_or_ge k nodes.length with hlt | hge
      · rw [List.getElem?_append_left hlt]
        exact h.internal k hk hlt
      · obtain rfl : k = nodes.length := by simp at hkl; omega
        exact ⟨f, a, b, List.getElem?_concat_length, ha, hb, hab⟩
    count := by
      have hc := h.count
      have hl := hp.length_eq
      simp only [List.length_append, List.length_cons, List.length_nil] at hl ⊢
      omega
    queue_nodup := by
      rw [← List.concat_eq_append]
      exact hrest.concat fun hn => (hlt _ hn).ne rfl
    queue_lt := fun x hx => by
      rcases List.mem_append.mp hx with hx | hx
      · exact Nat.lt_of_lt_of_le (hlt x hx) (by simp)
      · simp [List.mem_singleton.mp hx]
    queue_root := h.merge_queue_root hp
    parent := fun x hx => h.merge_parent hp x (by simpa using hx) }

end

theorem Forest.mergeStep {ft : List FreqEntry} {nodes nodes' : List Node} {q q' : List Nat}
    (h : Forest ft nodes q) (hm : mergeStep nodes q = some (nodes', q')) : Forest ft nodes' q' := by
  obtain ⟨a, b, rest, hp, rfl, rfl⟩ := mergeStep_perm hm
  exact h.merge hp

/-- The last node of a non-empty arena has no parent, so it is queued. -/
theorem Forest.last_mem_queue {ft : List FreqEntry} {nodes : List Node} {q : List Nat}
    (h : Forest ft nodes q) (hn : nodes ≠ []) : nodes.length - 1 ∈ q := by
  have := List.length_pos_iff.mpr hn
  by_contra hq
  obtain ⟨k, hk, -⟩ := h.parent _ (by omega) hq
  have := h.child_lt hk
  have := hk.lt_length
  omega

/-- `buildTree` makes a forest of one tree, whose root is the last node (10_state.md R42, R43). -/
theorem forest_buildTree {ft : List FreqEntry} (hft : ft ≠ []) :
    Forest ft (buildTree ft).nodes [(buildTree ft).root] := by
  have hn := List.length_pos_iff.mpr hft
  obtain ⟨x, hx⟩ := mergeLoop_keeps (P := Forest ft) (fun _ _ _ _ h hm => h.mergeStep hm)
    (k := ft.length - 1) (forest_leaves ft) (by simp; omega)
  have hc := hx.count
  rw [List.length_singleton] at hc
  have hl := List.mem_singleton.mp (hx.last_mem_queue (List.length_pos_iff.mp (by omega)))
  have hroot : x = 2 * ft.length - 2 := by omega
  subst hroot
  exact hx

theorem length_buildTree_nodes {ft : List FreqEntry} (hft : ft ≠ []) :
    (buildTree ft).nodes.length = 2 * ft.length - 1 := by
  have := (forest_buildTree hft).count
  rw [List.length_singleton] at this
  omega

/-! ### The frequencies that the loop keeps -/

theorem nodeFreq_append_left {nodes more : List Node} {x : Nat} (h : x < nodes.length) :
    nodeFreq (nodes ++ more) x = nodeFreq nodes x := by
  simp [nodeFreq, List.getElem?_append_left h]

theorem nodeFreq_append_length (nodes : List Node) (nd : Node) :
    nodeFreq (nodes ++ [nd]) nodes.length = nd.freq := by
  simp [nodeFreq]

/-- `Spec.freqAt` is the model's node frequency as a number. -/
theorem freqAt_eq (t : Tree) (x : Nat) : Spec.freqAt t x = (nodeFreq t.nodes x).toNat := by
  unfold Spec.freqAt nodeFreq
  split <;> simp [*, Node.freq]

/-- The frequencies of queued nodes, summed. -/
def queueWeight (nodes : List Node) (q : List Nat) : Nat :=
  (q.map fun x => (nodeFreq nodes x).toNat).sum

/-- While `buildTree ft` merges, the queued frequencies sum to FT's, so no addition wraps. -/
structure Weighed (ft : List FreqEntry) (nodes : List Node) (q : List Nat) : Prop where
  weight : queueWeight nodes q = freqSum ft
  sum : ∀ (k : Nat) (f : DWord) (l r : Nat), nodes[k]? = some (.internal f l r) →
    f.toNat = (nodeFreq nodes l).toNat + (nodeFreq nodes r).toNat

theorem queueWeight_append_left {nodes more : List Node} {q : List Nat}
    (h : ∀ x ∈ q, x < nodes.length) : queueWeight (nodes ++ more) q = queueWeight nodes q := by
  unfold queueWeight
  rw [List.map_congr_left fun x hx => by rw [nodeFreq_append_left (h x hx)]]

@[simp] theorem queueWeight_cons (nodes : List Node) (x : Nat) (q : List Nat) :
    queueWeight nodes (x :: q) = (nodeFreq nodes x).toNat + queueWeight nodes q := rfl

@[simp] theorem queueWeight_concat (nodes : List Node) (q : List Nat) (x : Nat) :
    queueWeight nodes (q ++ [x]) = queueWeight nodes q + (nodeFreq nodes x).toNat := by
  simp [queueWeight]

theorem queueWeight_perm {nodes : List Node} {q q' : List Nat} (h : q.Perm q') :
    queueWeight nodes q = queueWeight nodes q' := (h.map _).sum_eq

theorem weighed_leaves (ft : List FreqEntry) : Weighed ft (leavesOf ft) (List.range ft.length) where
  weight := by
    unfold queueWeight freqSum
    congr 1
    apply List.ext_getElem
    · simp
    · intro i _ h
      have hi : i < ft.length := by simpa using h
      simp [nodeFreq, getElem?_leavesOf, hi, Node.freq]
  sum k f l r hk := absurd ((forest_leaves ft).le_of_internal hk) (by
    have := (List.getElem?_eq_some_iff.mp hk).1
    simpa using this)

/-- A merge keeps the weight, where FT's frequencies sum to at most 2^64-1 (10_state.md R41). -/
theorem Weighed.mergeStep {ft : List FreqEntry} {nodes nodes' : List Node} {q q' : List Nat}
    (hw : Weighed ft nodes q) (h : Forest ft nodes q) (hsum : freqSum ft ≤ 2 ^ 64 - 1)
    (hm : mergeStep nodes q = some (nodes', q')) : Weighed ft nodes' q' := by
  obtain ⟨a, b, rest, hp, rfl, rfl⟩ := mergeStep_perm hm
  obtain ⟨ha, hb, hlt, -⟩ := h.popped hp
  have hweight : (nodeFreq nodes a).toNat + ((nodeFreq nodes b).toNat + queueWeight nodes rest)
      = freqSum ft := by
    rw [← hw.weight, queueWeight_perm hp, queueWeight_cons, queueWeight_cons]
  have hadd : (nodeFreq nodes a + nodeFreq nodes b).toNat =
      (nodeFreq nodes a).toNat + (nodeFreq nodes b).toNat :=
    BitVec.toNat_add_of_lt (by omega)
  constructor
  · rw [queueWeight_concat, queueWeight_append_left hlt,
      nodeFreq_append_length, Node.freq, hadd]
    omega
  · intro k f l r hk
    rcases Nat.lt_or_ge k nodes.length with hkl | hkl
    · rw [List.getElem?_append_left hkl] at hk
      obtain ⟨hl, hr, -⟩ := h.children hk
      rw [nodeFreq_append_left (by omega), nodeFreq_append_left (by omega)]
      exact hw.sum k f l r hk
    · rw [List.getElem?_append_right hkl] at hk
      obtain ⟨-, rfl, rfl, rfl⟩ : _ ∧ nodeFreq nodes a + nodeFreq nodes b = f ∧ a = l ∧ b = r := by
        simpa [List.getElem?_singleton] using hk
      rw [nodeFreq_append_left ha, nodeFreq_append_left hb, hadd]

theorem weighed_buildTree {ft : List FreqEntry} (hft : ft ≠ []) (hsum : freqSum ft ≤ 2 ^ 64 - 1) :
    ∃ q, Weighed ft (buildTree ft).nodes q := by
  have hn := List.length_pos_iff.mpr hft
  obtain ⟨x, -, hx⟩ := mergeLoop_keeps (P := fun nodes q => Forest ft nodes q ∧ Weighed ft nodes q)
    (fun _ _ _ _ h hm => ⟨h.1.mergeStep hm, h.2.mergeStep h.1 hsum hm⟩) (k := ft.length - 1)
    ⟨forest_leaves ft, weighed_leaves ft⟩ (by simp; omega)
  exact ⟨_, hx⟩

end Sys2Proof.Machine

namespace Sys2Proof.Proofs

open Sys2Proof Sys2Proof.Machine

/-- Settles O36: the forest that the merges keep, with the weights that keep the sums from wrapping. -/
theorem validTreeArena : Obligations.ValidTreeArena := by
  intro s hs hv
  obtain ⟨hft, htree⟩ := hs.tree_built hv
  have hn := List.length_pos_iff.mpr hft
  obtain ⟨q, hw⟩ := weighed_buildTree hft hs.ft_sum
  dsimp only
  rw [htree]
  have hf := forest_buildTree hft
  have hlen := length_buildTree_nodes hft
  refine ⟨hn, hlen, rfl, fun i e hi => ?_, fun k hk hlt => ?_⟩
  · obtain ⟨hlt, rfl⟩ := List.getElem?_eq_some_iff.mp hi
    exact hf.getElem?_leaf hlt
  · obtain ⟨f, l, r, hk, hl, hr, -⟩ := hf.internal k hk (by omega)
    exact ⟨f, l, r, hk, hl, hr, by simpa [freqAt_eq] using hw.sum k f l r hk⟩

/-- Settles O37: the forest that the merges keep has one root in the end. -/
theorem validTreeSharesNoNode : Obligations.ValidTreeSharesNoNode := by
  intro s hs hv
  obtain ⟨hft, htree⟩ := hs.tree_built hv
  have hf := forest_buildTree hft
  dsimp only
  rw [htree]
  exact ⟨rfl, fun x hx hroot => hf.parent x hx (by simpa using hroot), hf.queue_root _ (by simp),
    fun k f l r hk => (hf.children hk).2.2⟩

end Sys2Proof.Proofs
end

section
/-! The codes that `buildCodes` reads off the tree (40_huffman_model.md R117), and 10_state.md R44 and
R45. -/

namespace Sys2Proof.Machine

open Spec (follow)

/-! ### Following a bit string -/

@[simp] theorem follow_nil (t : Tree) (x : Nat) : follow t x [] = some x := rfl

theorem follow_internal {t : Tree} {x l r : Nat} {f : DWord} {b : Bool} {bs : Code}
    (h : t.nodes[x]? = some (.internal f l r)) :
    follow t x (b :: bs) = follow t (if b then r else l) bs := by
  simp [follow, h]

/-- No path leads below a leaf. -/
theorem follow_leaf {t : Tree} {x y : Nat} {a : Word} {f : DWord} {c : Code}
    (h : t.nodes[x]? = some (.leaf a f)) (hc : follow t x c = some y) : c = [] ∧ x = y := by
  cases c with
  | nil => exact ⟨rfl, by simpa using hc⟩
  | cons b bs => simp [follow, h] at hc

theorem follow_append {t : Tree} {x : Nat} {c d : Code} :
    follow t x (c ++ d) = (follow t x c).bind fun y => follow t y d := by
  induction c generalizing x with
  | nil => rfl
  | cons b bs ih =>
    simp only [List.cons_append, follow]
    split
    · exact ih
    · rfl

/-! ### The walk -/

/-- What the walk lists is a path to the node it lists it with. -/
theorem follow_of_mem_walk {t : Tree} {fuel x i : Nat} {p c : Code}
    (h : (i, c) ∈ walk t.nodes fuel x p) : ∃ d, c = p ++ d ∧ follow t x d = some i := by
  induction fuel generalizing x p with
  | zero => cases h
  | succ fuel ih =>
    simp only [walk] at h
    split at h
    · cases h
    · obtain ⟨rfl, rfl⟩ : i = x ∧ c = p := by simpa using h
      exact ⟨[], by simp⟩
    next f l r hx =>
      rcases List.mem_append.mp h with h | h
      · obtain ⟨d, rfl, hd⟩ := ih h
        exact ⟨false :: d, by simp, by rw [follow_internal hx]; exact hd⟩
      · obtain ⟨d, rfl, hd⟩ := ih h
        exact ⟨true :: d, by simp, by rw [follow_internal hx]; exact hd⟩

/-- The walk from `x` lists every leaf that a path from `x` leads to: a child stands before its
parent, so fuel above `x` is enough. -/
theorem mem_walk_of_follow {t : Tree} {ft : List FreqEntry} {q : List Nat}
    (hf : Forest ft t.nodes q) {i : Nat} (hi : i < ft.length) {fuel x : Nat} (p : Code) {d : Code}
    (hx : x < fuel) (hd : follow t x d = some i) : (i, p ++ d) ∈ walk t.nodes fuel x p := by
  induction fuel generalizing x p d with
  | zero => omega
  | succ fuel ih =>
    cases d with
    | nil =>
      obtain rfl : x = i := by simpa using hd
      simp [walk, hf.getElem?_leaf hi]
    | cons b bs =>
      simp only [follow] at hd
      split at hd
      next f l r hnode =>
        obtain ⟨hl, hr, -⟩ := hf.children hnode
        have hmem := ih (p ++ [b]) (by split <;> omega) hd
        simp only [walk, hnode, List.mem_append]
        cases b with
        | false => exact .inl (by simpa using hmem)
        | true => exact .inr (by simpa using hmem)
      · cases hd

/-! ### The codes of `buildTree`'s trees -/

/-- Every node is on a path from the root: its parent is, and the parents rise. -/
theorem exists_follow_root {t : Tree} {ft : List FreqEntry} (hf : Forest ft t.nodes [t.root])
    (y : Nat) (hy : y < t.nodes.length) : ∃ d, follow t t.root d = some y := by
  by_cases hroot : y = t.root
  · exact ⟨[], by simp [hroot]⟩
  · obtain ⟨k, hk, -⟩ := hf.parent y hy (by simpa using hroot)
    have hlt := hf.child_lt hk
    have hkl := hk.lt_length
    obtain ⟨d, hd⟩ := exists_follow_root hf k hkl
    obtain ⟨f, l, r, hnode, rfl | rfl⟩ := hk
    · exact ⟨d ++ [false], by simp [follow_append, hd, follow_internal hnode]⟩
    · exact ⟨d ++ [true], by simp [follow_append, hd, follow_internal hnode]⟩
  termination_by t.nodes.length - y

theorem Forest.length_le {ft : List FreqEntry} {nodes : List Node} {q : List Nat}
    (hf : Forest ft nodes q) : ft.length ≤ nodes.length := by
  simpa using hf.leaves.length_le

/-- The code that the walk gives a leaf leads from the root to that leaf. -/
theorem follow_codeAt {t : Tree} {ft : List FreqEntry} (hf : Forest ft t.nodes [t.root]) {i : Nat}
    (hi : i < ft.length) :
    follow t t.root (codeAt (walk t.nodes t.nodes.length t.root []) i) = some i := by
  have hroot : t.root < t.nodes.length := hf.queue_lt _ (by simp)
  obtain ⟨d, hd⟩ := exists_follow_root hf i (hi.trans_le hf.length_le)
  have hmem := mem_walk_of_follow hf hi [] hroot hd
  obtain ⟨w, hw⟩ : ∃ w, (walk t.nodes t.nodes.length t.root []).find? (fun w => w.1 == i) = some w :=
    Option.isSome_iff_exists.mp (List.find?_isSome.mpr ⟨_, hmem, by simp⟩)
  obtain rfl : w.1 = i := by simpa using List.find?_some hw
  obtain ⟨c, hc, hfollow⟩ := follow_of_mem_walk (List.mem_of_find?_eq_some hw)
  simpa [codeAt, hw, hc] using hfollow

theorem Forest.leafCount {ft : List FreqEntry} {t : Tree} {q : List Nat}
    (hf : Forest ft t.nodes q) : t.leafCount = ft.length := by
  obtain ⟨tail, htail⟩ := hf.leaves
  have hleaf : ∀ nd ∈ leavesOf ft, nd.isLeaf = true := by simp [leavesOf, Node.isLeaf]
  have hinternal : ∀ nd ∈ tail, ¬ nd.isLeaf = true := by
    intro nd hnd
    obtain ⟨j, hj, rfl⟩ := List.getElem_of_mem hnd
    obtain ⟨f, l, r, hk, -⟩ := hf.internal (ft.length + j) (by omega) (by simp [← htail, hj])
    rw [← htail, List.getElem?_append_right (by simp)] at hk
    simp only [length_leavesOf, Nat.add_sub_cancel_left, List.getElem?_eq_getElem hj,
      Option.some.injEq] at hk
    simp [hk, Node.isLeaf]
  rw [Tree.leafCount, ← htail, List.filter_append, List.filter_eq_self.mpr hleaf,
    List.filter_eq_nil_iff.mpr hinternal]
  simp

/-- One leaf has the code 0 (10_state.md R45). -/
theorem buildCodes_one {ft : List FreqEntry} (h : ft.length = 1) :
    buildCodes (buildTree ft) = [[false]] := by
  have hf := forest_buildTree (ft := ft) (by rintro rfl; simp at h)
  rw [buildCodes, if_pos (by rw [hf.leafCount, h])]

/-- With two or more leaves, leaf `i` has its root path as code. -/
theorem buildCodes_of_two_le {ft : List FreqEntry} (h : 2 ≤ ft.length) :
    (buildCodes (buildTree ft)).length = ft.length ∧
      ∀ i c, (buildCodes (buildTree ft))[i]? = some c →
        i < ft.length ∧ follow (buildTree ft) (buildTree ft).root c = some i := by
  have hf := forest_buildTree (ft := ft) (by rintro rfl; simp at h)
  have hc : buildCodes (buildTree ft) = (List.range ft.length).map
      (codeAt (walk (buildTree ft).nodes (buildTree ft).nodes.length (buildTree ft).root [])) := by
    rw [buildCodes, hf.leafCount, if_neg (by omega)]
  rw [hc]
  refine ⟨by simp, fun i c hi => ?_⟩
  obtain ⟨hlt, rfl⟩ := List.getElem?_eq_some_iff.mp hi
  have hlt : i < ft.length := by simpa using hlt
  exact ⟨hlt, by simpa using follow_codeAt hf hlt⟩

theorem length_buildCodes {ft : List FreqEntry} (h : ft ≠ []) :
    (buildCodes (buildTree ft)).length = ft.length := by
  have := List.length_pos_iff.mpr h
  rcases Nat.lt_or_ge 1 ft.length with h2 | h1
  · exact (buildCodes_of_two_le h2).1
  · rw [buildCodes_one (by omega)]
    simp
    omega

/-- The root of a tree of two or more leaves is not a leaf, so no code is empty. -/
theorem one_le_length_code {ft : List FreqEntry} (h : ft ≠ []) {c : Code}
    (hc : c ∈ buildCodes (buildTree ft)) : 1 ≤ c.length := by
  have := List.length_pos_iff.mpr h
  rcases Nat.lt_or_ge 1 ft.length with h2 | h1
  · obtain ⟨i, hi⟩ := List.mem_iff_getElem?.mp hc
    obtain ⟨hlt, hfollow⟩ := (buildCodes_of_two_le h2).2 i c hi
    refine List.length_pos_iff.mpr ?_
    rintro rfl
    have hroot : 2 * ft.length - 2 = i := by simpa [buildTree] using hfollow
    omega
  · rw [buildCodes_one (by omega)] at hc
    simp [List.mem_singleton.mp hc]

/-- A code that begins another leads to a leaf on the way, where no path goes on. -/
theorem buildCodes_prefix_free {ft : List FreqEntry} (h : ft ≠ []) {i j : Nat} {c d : Code}
    (hc : (buildCodes (buildTree ft))[i]? = some c) (hd : (buildCodes (buildTree ft))[j]? = some d)
    (hp : c <+: d) : i = j := by
  have hn := List.length_pos_iff.mpr h
  rcases Nat.lt_or_ge 1 ft.length with h2 | h1
  · obtain ⟨hi, hci⟩ := (buildCodes_of_two_le h2).2 i c hc
    obtain ⟨-, hdj⟩ := (buildCodes_of_two_le h2).2 j d hd
    obtain ⟨e, rfl⟩ := hp
    rw [follow_append, hci] at hdj
    exact (follow_leaf ((forest_buildTree h).getElem?_leaf hi) hdj).2
  · have hi := (List.getElem?_eq_some_iff.mp hc).1
    have hj := (List.getElem?_eq_some_iff.mp hd).1
    rw [length_buildCodes h] at hi hj
    omega

theorem le_maxLen {cs : List Code} {c : Code} (h : c ∈ cs) : c.length ≤ maxLen cs := by
  induction cs with
  | nil => cases h
  | cons d ds ih =>
    have hcons : maxLen (d :: ds) = max d.length (maxLen ds) := rfl
    rcases List.mem_cons.mp h with rfl | h
    · omega
    · have := ih h
      omega

end Sys2Proof.Machine

namespace Sys2Proof.Proofs

open Sys2Proof Sys2Proof.Machine

/-- Settles O39: each code is a path from the root to its leaf, and no path goes on from a leaf. -/
theorem validCodesArePrefixFree : Obligations.ValidCodesArePrefixFree := by
  intro s hs hv
  obtain ⟨htv, hct, hmax⟩ := hs.codes_built hv
  obtain ⟨hft, htree⟩ := hs.tree_built htv
  have hcodes : s.tables.ct = buildCodes (buildTree s.tables.ft) := by rw [hct, htree]
  refine ⟨by rw [hcodes, length_buildCodes hft], fun c hc => ⟨?_, (le_maxLen hc).trans hmax⟩, hct,
    fun i j c d hij hi hj hp => hij ?_, fun h1 => by rw [hcodes, buildCodes_one h1]⟩
  · exact one_le_length_code hft (hcodes ▸ hc)
  · exact buildCodes_prefix_free hft (hcodes ▸ hi) (hcodes ▸ hj) hp

end Sys2Proof.Proofs
end

section
/-! How a command's completion is told from STATUS.ERR, and what a command leaves of the tables
(10_state.md R46). -/

namespace Sys2Proof.Machine

/-! ### The spec's words and the model's operands (10_state.md R39) -/

@[simp] theorem operands_eq_latched (s : State) : Spec.operands s = s.latched := by
  unfold Spec.operands State.latched
  cases s.seq <;> rfl

@[simp] theorem spec_src_eq (s : State) : Spec.src s = s.src := by simp [Spec.src, State.src]

@[simp] theorem spec_len_eq (s : State) : Spec.len s = s.len := by simp [Spec.len, State.len]

@[simp] theorem spec_dst_eq (s : State) : Spec.dst s = s.dst := by simp [Spec.dst, State.dst]

@[simp] theorem spec_cap_eq (s : State) : Spec.cap s = s.cap := by simp [Spec.cap, State.cap]

@[simp] theorem spec_field_eq (s : State) (o n : Nat) : Spec.field s o n = s.srcRead o n := by
  simp [Spec.field, State.srcRead]

@[simp] theorem spec_symbols_eq (s : State) : Spec.symbols s = s.symbols := by
  simp [Spec.symbols, State.symbols, State.srcRead]

@[simp] theorem spec_headerTable_eq (s : State) (n : Nat) :
    Spec.headerTable s n = s.headerEntries n := by
  simp [Spec.headerTable, State.headerEntries]

@[simp] theorem length_symbols (s : State) : s.symbols.length = s.len / 4 := by
  simp [State.symbols]

@[simp] theorem length_headerEntries (s : State) (n : Nat) : (s.headerEntries n).length = n := by
  simp [State.headerEntries]

/-! ### Success and failure, told by STATUS.ERR (60_exceptions.md R210, R211, R213) -/

/-- `m` fails with the errors of `es` at most. -/
def RaisesOnly {α : Type} (es : List ErrCode) (m : Except ErrCode α) : Prop :=
  ∀ e, m = .error e → e ∈ es

theorem raisesOnly_ok {α : Type} (es : List ErrCode) (x : α) : RaisesOnly es (.ok x) := by
  intro e h; cases h

theorem raisesOnly_raiseIf {es : List ErrCode} {bad : Bool} {e : ErrCode} :
    RaisesOnly es (raiseIf bad e) ↔ (bad = true → e ∈ es) := by
  simp [RaisesOnly, raiseIf_error]

theorem raisesOnly_bind {α β : Type} {es : List ErrCode} {m : Except ErrCode α}
    {k : α → Except ErrCode β} :
    RaisesOnly es (m >>= k) ↔ RaisesOnly es m ∧ ∀ x, m = .ok x → RaisesOnly es (k x) := by
  simp only [RaisesOnly, except_bind_error]
  constructor
  · exact fun h => ⟨fun e he => h e (.inl he), fun x hx e he => h e (.inr ⟨x, hx, he⟩)⟩
  · rintro ⟨hm, hk⟩ e (he | ⟨x, hx, he⟩)
    exacts [hm e he, hk x hx e he]

/-- A command fails with the codes that 60_exceptions.md R210 lists for it. -/
theorem resultOf_raisesOnly (i : Instr) (s : State) :
    RaisesOnly (Spec.mayReport i).tail (resultOf i s) := by
  cases i <;>
    simp [resultOf, Spec.mayReport, nop, freqCount, freqLoad, treeBuild, codeGen, huffPack, textEncode,
      imgEncode, imgDecode, parseImg, audEncode, audDecode, parseAud, clearTables, checkSrc, checkDst,
      except_pure, raisesOnly_bind, raisesOnly_raiseIf, raisesOnly_ok]

/-- A failure reports an error code. -/
theorem resultOf_error_ne_none {i : Instr} {s : State} {e : ErrCode} (h : resultOf i s = .error e) :
    e ≠ .none := by
  have hmem := resultOf_raisesOnly i s e h
  rintro rfl
  cases i <;> simp [Spec.mayReport] at hmem

/-- ERR is none exactly on success. -/
theorem exec_of_err_none {i : Instr} {s t : State} (h : exec i s = .next t)
    (he : t.status.err = .none) : ∃ u out, resultOf i s = .ok (u, out) ∧ t = u.succeeded out := by
  obtain hok | ⟨e, hr, rfl⟩ := exec_cases h
  · exact hok
  · exact absurd he (resultOf_error_ne_none hr)

theorem exec_of_err_ne_none {i : Instr} {s t : State} (h : exec i s = .next t)
    (he : t.status.err ≠ .none) :
    resultOf i s = .error t.status.err ∧ t = s.failed t.status.err := by
  obtain ⟨u, out, -, rfl⟩ | ⟨e, hr, rfl⟩ := exec_cases h
  · exact absurd rfl he
  · exact ⟨hr, rfl⟩

/-! ### The tables after a command (10_state.md R46) -/

/-- The tables that a successful command leaves. -/
def tablesAfter (s : State) : Instr → Tables
  | .freqCount => s.tables.withFreq (countFreq s.symbols)
  | .freqLoad => s.tables.withFreq (s.headerEntries (s.srcRead 0 4))
  | .treeBuild => s.tables.withTree (buildTree s.tables.ft)
  | .codeGen => s.tables.withCodes (buildCodes s.tables.tree)
  | .textEncode =>
    { ft := countFreq s.symbols, tree := buildTree (countFreq s.symbols), treeValid := true
      ct := buildCodes (buildTree (countFreq s.symbols)), ctValid := true }
  | .clearTables => s.tables.withFreq []
  | .nop | .huffPack | .imgEncode | .imgDecode | .audEncode | .audDecode => s.tables

theorem resultOf_ok_tables {i : Instr} {s u : State} {out : Nat}
    (h : resultOf i s = .ok (u, out)) : u.tables = tablesAfter s i := by
  cases i with
  | nop => obtain ⟨rfl, -⟩ := nop_ok.mp h; rfl
  | freqCount => obtain ⟨-, -, -, -, rfl, -⟩ := freqCount_ok.mp h; rfl
  | freqLoad => obtain ⟨-, -, -, -, -, -, -, rfl, -⟩ := freqLoad_ok.mp h; rfl
  | treeBuild => obtain ⟨-, rfl, -⟩ := treeBuild_ok.mp h; rfl
  | codeGen => obtain ⟨-, -, rfl, -⟩ := codeGen_ok.mp h; rfl
  | huffPack => obtain ⟨-, -, -, -, -, -, -, -, rfl, -⟩ := huffPack_ok.mp h; rfl
  | textEncode => obtain ⟨-, -, -, -, -, -, -, -, rfl, -⟩ := textEncode_ok.mp h; rfl
  | imgEncode => obtain ⟨-, -, -, -, -, -, -, rfl, -⟩ := imgEncode_ok.mp h; rfl
  | imgDecode => obtain ⟨-, -, -, _, -, -, rfl, -⟩ := imgDecode_ok.mp h; rfl
  | audEncode => obtain ⟨-, -, -, -, -, -, -, -, -, -, rfl, -⟩ := audEncode_ok.mp h; rfl
  | audDecode => obtain ⟨-, -, -, _, -, -, rfl, -⟩ := audDecode_ok.mp h; rfl
  | clearTables => obtain ⟨rfl, -⟩ := clearTables_ok.mp h; rfl

end Sys2Proof.Machine

namespace Sys2Proof.Proofs

open Sys2Proof Sys2Proof.Machine

/-- Settles O52: the flags by the invariant, and the rows of the table by the tables that each command
leaves. -/
theorem validityFlagsFollowTheirTable : Obligations.ValidityFlagsFollowTheirTable := by
  refine ⟨fun s h => ⟨fun hv => (h.codes_built hv).1, fun hv => ?_⟩, fun i s t ht => ⟨fun he => ?_,
    fun he => ?_⟩⟩
  · exact List.length_pos_iff.mpr (h.tree_built hv).1
  · rw [(exec_of_err_ne_none ht he).2, State.failed_tables]
  · obtain ⟨u, out, hr, rfl⟩ := exec_of_err_none ht he
    rw [State.succeeded_tables, resultOf_ok_tables hr]
    cases i with
    | codeGen =>
      obtain ⟨hv, -⟩ := codeGen_ok.mp hr
      simp [tablesAfter, hv]
    | _ => simp [tablesAfter]

end Sys2Proof.Proofs
end

section
/-! What a command writes to buffer memory, what a count makes of FT, and that every step keeps the
invariant (10_state.md R39 to R46, 20_memory.md R60). -/

namespace Sys2Proof.Machine

/-! ### Buffer memory after a command (20_memory.md R67) -/

theorem length_flatMap_pixelBytes (ps : List Pixel) : (ps.flatMap Pixel.bytes).length = 3 * ps.length :=
  length_flatMap_const ps _ 3 fun _ _ => rfl

theorem length_flatMap_sampleBytes (xs : List Int) :
    (xs.flatMap sampleBytes).length = 2 * xs.length :=
  length_flatMap_const xs _ 2 fun x _ => length_sampleBytes x

/-- Runs keep their total when their values change. -/
theorem runTotal_map {α β : Type} (f : α → β) (runs : List (α × Nat)) :
    runTotal (runs.map fun r => (f r.1, r.2)) = runTotal runs := by
  simp [runTotal, Function.comp_def]

theorem parseImg_total {s : State} {a : ParsedImage} (h : parseImg s = .ok a) :
    runTotal a.runs = a.width * a.height := by
  obtain ⟨-, -, -, htotal, rfl⟩ := parseImg_ok.mp h
  exact htotal

theorem parseAud_total {s : State} {a : ParsedAudio} (h : parseAud s = .ok a) :
    runTotal a.runs = a.params.frames * a.params.channels := by
  obtain ⟨-, -, -, htotal, rfl⟩ := parseAud_ok.mp h
  exact htotal

/-- A command that succeeds writes nothing, or OUT_LEN bytes into a destination range that exists. -/
theorem resultOf_ok_mem {i : Instr} {s u : State} {out : Nat} (h : resultOf i s = .ok (u, out)) :
    (u.mem = s.mem ∧ out = 0) ∨
    ∃ bs, u.mem = (s.storeBytes bs).mem ∧ bs.length = out ∧ out ≤ s.cap ∧
      dstInMemory s.params s.latched.regs = true := by
  cases i with
  | nop => obtain ⟨rfl, rfl⟩ := nop_ok.mp h; exact .inl ⟨rfl, rfl⟩
  | freqCount => obtain ⟨-, -, -, -, rfl, rfl⟩ := freqCount_ok.mp h; exact .inl ⟨rfl, rfl⟩
  | freqLoad => obtain ⟨-, -, -, -, -, -, -, rfl, rfl⟩ := freqLoad_ok.mp h; exact .inl ⟨rfl, rfl⟩
  | treeBuild => obtain ⟨-, rfl, rfl⟩ := treeBuild_ok.mp h; exact .inl ⟨rfl, rfl⟩
  | codeGen => obtain ⟨-, -, rfl, rfl⟩ := codeGen_ok.mp h; exact .inl ⟨rfl, rfl⟩
  | huffPack =>
    obtain ⟨-, hdst, -, -, -, -, -, hcap, rfl, rfl⟩ := huffPack_ok.mp h
    exact .inr ⟨_, State.setResult_mem _ _, rfl, hcap, hdst⟩
  | textEncode =>
    obtain ⟨-, hdst, -, -, -, -, -, hcap, rfl, rfl⟩ := textEncode_ok.mp h
    exact .inr ⟨_, State.setResult_mem _ _, rfl, hcap, hdst⟩
  | imgEncode =>
    obtain ⟨-, hdst, -, -, -, -, hcap, rfl, rfl⟩ := imgEncode_ok.mp h
    exact .inr ⟨_, State.setResult_mem _ _, rfl, hcap, hdst⟩
  | imgDecode =>
    obtain ⟨-, hdst, -, a, hparse, hcap, rfl, rfl⟩ := imgDecode_ok.mp h
    exact .inr ⟨_, rfl, by rw [length_flatMap_pixelBytes, length_expand, parseImg_total hparse], hcap,
      hdst⟩
  | audEncode =>
    obtain ⟨-, hdst, -, -, -, -, -, -, -, hcap, rfl, rfl⟩ := audEncode_ok.mp h
    exact .inr ⟨_, State.setResult_mem _ _, rfl, hcap, hdst⟩
  | audDecode =>
    obtain ⟨-, hdst, -, a, hparse, hcap, rfl, rfl⟩ := audDecode_ok.mp h
    exact .inr ⟨_, rfl, by rw [length_flatMap_sampleBytes, length_expand, runTotal_map,
      parseAud_total hparse], hcap, hdst⟩
  | clearTables => obtain ⟨rfl, rfl⟩ := clearTables_ok.mp h; exact .inl ⟨rfl, rfl⟩

/-- Memory is canonical and lists only bytes that exist (20_memory.md R60). -/
structure Memory.Sound (p : Params) (m : Memory) : Prop where
  wf : m.wf = true
  inside : m.Listed (· < p.memSize)

theorem resultOf_ok_mem_sound {i : Instr} {s u : State} {out : Nat}
    (h : resultOf i s = .ok (u, out)) (hm : s.mem.Sound s.params) : u.mem.Sound s.params := by
  obtain ⟨hmem, -⟩ | ⟨bs, hmem, hlen, hcap, hdst⟩ := resultOf_ok_mem h
  · rwa [hmem]
  · have hdst : s.dst + s.cap ≤ s.params.memSize := by
      simpa [dstInMemory, State.dst, State.cap] using hdst
    rw [hmem, State.storeBytes_mem]
    exact ⟨Memory.writeBytes_wf _ _ hm.wf,
      Memory.listed_writeBytes hm.inside fun k hk => show s.dst + k < s.params.memSize by omega⟩

/-! ### The frequency table that a count makes (40_huffman_model.md R111) -/

/-- The order of FT (10_state.md R40). -/
abbrev SymLt (d e : FreqEntry) : Prop := d.sym.toNat < e.sym.toNat

theorem ascending_iff_pairwise {ft : List FreqEntry} : ascending ft = true ↔ ft.Pairwise SymLt := by
  have : Trans SymLt SymLt SymLt := ⟨Nat.lt_trans⟩
  rw [← List.isChain_iff_pairwise]
  induction ft with
  | nil => simp [ascending]
  | cons e es ih => cases es <;> simp_all [ascending]

theorem risingCells_iff_pairwise {cs : List Host.Cell} :
    risingCells cs = true ↔ cs.Pairwise fun c d => c.1 < d.1 := by
  induction cs with
  | nil => simp [risingCells]
  | cons c cs ih => rw [risingCells_cons_iff, List.pairwise_cons, ih]; rfl

theorem mem_bump_sym {x : Word} {ft : List FreqEntry} {e : FreqEntry} (h : e ∈ bump x ft) :
    e.sym = x ∨ ∃ d ∈ ft, d.sym = e.sym := by
  induction ft with
  | nil => exact .inl (by simpa [bump] using congrArg FreqEntry.sym (List.mem_singleton.mp h))
  | cons d ds ih =>
    unfold bump at h
    split at h
    · rcases List.mem_cons.mp h with rfl | h
      exacts [.inl rfl, .inr ⟨e, h, rfl⟩]
    · split at h
      · rcases List.mem_cons.mp h with rfl | h
        exacts [.inr ⟨d, by simp, rfl⟩, .inr ⟨e, by simp [h], rfl⟩]
      · rcases List.mem_cons.mp h with rfl | h
        · exact .inr ⟨e, by simp, rfl⟩
        · rcases ih h with h | ⟨d', hd', h⟩
          exacts [.inl h, .inr ⟨d', by simp [hd'], h⟩]

theorem pairwise_bump (x : Word) {ft : List FreqEntry} (h : ft.Pairwise SymLt) :
    (bump x ft).Pairwise SymLt := by
  induction ft with
  | nil => simp [bump]
  | cons d ds ih =>
    obtain ⟨hd, hds⟩ := List.pairwise_cons.mp h
    unfold bump
    split
    next hlt =>
      refine List.pairwise_cons.mpr ⟨fun e he => ?_, h⟩
      rcases List.mem_cons.mp he with rfl | he
      exacts [hlt, Nat.lt_trans hlt (hd e he)]
    next hge =>
      split
      · exact List.pairwise_cons.mpr ⟨hd, hds⟩
      next hne =>
        refine List.pairwise_cons.mpr ⟨fun e he => ?_, ih hds⟩
        rcases mem_bump_sym he with he | ⟨d', hd', he⟩
        · have hne : x.toNat ≠ d.sym.toNat := fun h => hne (BitVec.eq_of_toNat_eq h)
          simp only [SymLt, he]
          omega
        · simpa [SymLt, ← he] using hd d' hd'

theorem pairwise_countFreq (syms : List Word) : (countFreq syms).Pairwise SymLt := by
  suffices h : ∀ ft : List FreqEntry, ft.Pairwise SymLt →
      (syms.foldl (fun ft x => bump x ft) ft).Pairwise SymLt from h [] .nil
  induction syms with
  | nil => exact fun ft h => h
  | cons x xs ih => exact fun ft h => ih _ (pairwise_bump x h)

@[simp] theorem freqSum_nil : freqSum [] = 0 := rfl

@[simp] theorem freqSum_cons (e : FreqEntry) (es : List FreqEntry) :
    freqSum (e :: es) = e.freq.toNat + freqSum es := rfl

/-- One more occurrence adds at most 1 (and exactly 1 where nothing wraps). -/
theorem freqSum_bump_le (x : Word) (ft : List FreqEntry) : freqSum (bump x ft) ≤ freqSum ft + 1 := by
  induction ft with
  | nil => simp [bump, freqSum]
  | cons d ds ih =>
    unfold bump
    split
    · simp; omega
    · split
      · have : (d.freq + 1).toNat ≤ d.freq.toNat + 1 := by
          rw [BitVec.toNat_add]
          exact Nat.mod_le _ _
        simp only [freqSum_cons]
        omega
      · simp only [freqSum_cons]
        omega

theorem freqSum_countFreq_le (syms : List Word) : freqSum (countFreq syms) ≤ syms.length := by
  suffices h : ∀ ft : List FreqEntry,
      freqSum (syms.foldl (fun ft x => bump x ft) ft) ≤ freqSum ft + syms.length by
    simpa [countFreq] using h []
  induction syms with
  | nil => simp
  | cons x xs ih =>
    intro ft
    have := freqSum_bump_le x ft
    have := ih (bump x ft)
    simp only [List.foldl_cons, List.length_cons]
    omega

theorem bump_ne_nil (x : Word) (ft : List FreqEntry) : bump x ft ≠ [] := by
  cases ft with
  | nil => simp [bump]
  | cons d ds => unfold bump; split <;> [skip; split] <;> simp

theorem countFreq_ne_nil {syms : List Word} (h : syms ≠ []) : countFreq syms ≠ [] := by
  rw [← List.dropLast_append_getLast h, countFreq, List.foldl_append]
  exact bump_ne_nil _ _

/-! ### The tables stay sound (10_state.md R40, R41, R43, R44, R46) -/

/-- What the invariant says of the tables. -/
structure Tables.Sound (p : Params) (T : Tables) : Prop where
  ascending : ascending T.ft = true
  capacity : T.ft.length ≤ p.maxSymbols
  sum : freqSum T.ft ≤ 2 ^ 64 - 1
  tree_built : T.treeValid = true → T.ft ≠ [] ∧ T.tree = buildTree T.ft
  codes_built : T.ctValid = true →
    T.treeValid = true ∧ T.ct = buildCodes T.tree ∧ maxLen T.ct ≤ p.maxCodeLen

/-- A new FT is sound by itself, since neither TREE nor CT is valid then. -/
theorem Tables.sound_withFreq {p : Params} (T : Tables) {ft : List FreqEntry}
    (hasc : Machine.ascending ft = true) (hcap : ft.length ≤ p.maxSymbols)
    (hsum : freqSum ft ≤ 2 ^ 64 - 1) : (T.withFreq ft).Sound p where
  ascending := hasc
  capacity := hcap
  sum := hsum
  tree_built h := by cases h
  codes_built h := by cases h

theorem ascending_countFreq (syms : List Word) : ascending (countFreq syms) = true :=
  ascending_iff_pairwise.mpr (pairwise_countFreq syms)

/-- A text that SRC_LEN admits has far fewer symbols than 2^64. -/
theorem freqSum_countFreq_symbols (s : State) : freqSum (countFreq s.symbols) ≤ 2 ^ 64 - 1 := by
  have hsum := freqSum_countFreq_le s.symbols
  have hlen : s.len < 2 ^ 32 := s.latched.regs.srcLen.isLt
  rw [length_symbols] at hsum
  omega

theorem resultOf_ok_tables_sound {i : Instr} {s u : State} {out : Nat}
    (h : resultOf i s = .ok (u, out)) (hT : s.tables.Sound s.params) : u.tables.Sound s.params := by
  rw [resultOf_ok_tables h]
  cases i with
  | nop | huffPack | imgEncode | imgDecode | audEncode | audDecode => exact hT
  | freqCount =>
    obtain ⟨-, -, -, hcap, -, -⟩ := freqCount_ok.mp h
    exact s.tables.sound_withFreq (ascending_countFreq _) hcap (freqSum_countFreq_symbols s)
  | freqLoad =>
    obtain ⟨-, -, -, -, hasc, hsum, hcap, -, -⟩ := freqLoad_ok.mp h
    exact s.tables.sound_withFreq hasc (by simpa using hcap) (by simpa using hsum)
  | treeBuild =>
    obtain ⟨hft, -, -⟩ := treeBuild_ok.mp h
    exact { hT with
      tree_built := fun _ => ⟨hft, rfl⟩
      codes_built := fun hv => by cases hv }
  | codeGen =>
    obtain ⟨hv, hlen, -, -⟩ := codeGen_ok.mp h
    exact { hT with codes_built := fun _ => ⟨hv, rfl, hlen⟩ }
  | textEncode =>
    obtain ⟨-, -, -, hlen, hmod, hcap, hmax, -, -, -⟩ := textEncode_ok.mp h
    have hsyms : s.symbols ≠ [] := by
      rw [← List.length_pos_iff, length_symbols]
      omega
    exact
    { ascending := ascending_countFreq _
      capacity := hcap
      sum := freqSum_countFreq_symbols s
      tree_built := fun _ => ⟨countFreq_ne_nil hsyms, rfl⟩
      codes_built := fun _ => ⟨rfl, rfl, hmax⟩ }
  | clearTables => exact s.tables.sound_withFreq rfl (Nat.zero_le _) (Nat.zero_le _)

/-! ### Every step keeps the invariant -/

theorem State.Inv.mem_sound {s : State} (h : s.Inv) : s.mem.Sound s.params := ⟨h.mem_wf, h.mem_inside⟩

theorem State.Inv.tables_sound {s : State} (h : s.Inv) : s.tables.Sound s.params :=
  ⟨h.ft_ascending, h.ft_capacity, h.ft_sum, h.tree_built, h.codes_built⟩

/-- While IDLE the invariant is that parameters, memory and tables are sound. -/
theorem State.inv_of_idle {s : State} (hp : s.params.wf = true) (hm : s.mem.Sound s.params)
    (hT : s.tables.Sound s.params) (hs : s.seq = .idle) : s.Inv where
  params_wf := hp
  mem_wf := hm.wf
  mem_inside := hm.inside
  ft_ascending := hT.ascending
  ft_capacity := hT.capacity
  ft_sum := hT.sum
  tree_built := hT.tree_built
  codes_built := hT.codes_built
  in_flight f h := by rw [hs] at h; cases h

theorem State.Inv.popEvent {s : State} (h : s.Inv) : s.popEvent.Inv := { h with }

theorem State.Inv.failed {s : State} (h : s.Inv) (e : ErrCode) : (s.failed e).Inv :=
  State.inv_of_idle h.params_wf h.mem_sound h.tables_sound rfl

theorem State.Inv.exec {s t : State} {i : Instr} (h : s.Inv) (ht : exec i s = .next t) : t.Inv := by
  obtain ⟨u, out, hr, rfl⟩ | ⟨e, -, rfl⟩ := exec_cases ht
  · have hp : u.params = s.params := (resultOf_ok_sameFrame hr).params
    have hm := resultOf_ok_mem_sound hr h.mem_sound
    have hT := resultOf_ok_tables_sound hr h.tables_sound
    rw [← hp] at hm hT
    exact State.inv_of_idle (by simpa [hp] using h.params_wf) hm hT rfl
  · exact h.failed e

theorem State.Inv.engineTurn {s t : State} (h : s.Inv) (ht : engineTurn s = .next t) : t.Inv := by
  obtain ⟨-, rfl⟩ | ⟨f, -, ⟨i, -, hi⟩ | ⟨-, rfl⟩⟩ := engineTurn_cases ht
  · exact h
  · exact h.exec hi
  · exact h.failed _

theorem State.Inv.resetPulse {s : State} (h : s.Inv) : (resetPulse s).Inv :=
  State.inv_of_idle h.params_wf
    ⟨Memory.scramble_wf _ _ h.mem_wf,
      Memory.listed_scramble h.mem_inside fun _ ha => (mem_scrambledAddrs.mp ha).2⟩
    (Tables.sound_withFreq .reset rfl (Nat.zero_le _) (Nat.zero_le _)) rfl

theorem State.Inv.accept {s : State} (h : s.Inv) (w : Word) : (s.accept w).Inv :=
  { h with in_flight := fun f hf => by cases hf; exact ⟨rfl, rfl, rfl, rfl, rfl⟩ }

theorem State.Inv.hostWriteReg {s : State} (h : s.Inv) (off : Nat) (v : Word) :
    (hostWriteReg s off v).Inv := by
  obtain he | ⟨-, he⟩ | ⟨-, he⟩ | he | he | ⟨hb, g, i, j, he⟩ := hostWriteReg_cases s off v <;> rw [he]
  · exact h
  · exact h.accept v
  · exact { h with }
  · refine { h with in_flight := fun f hf => ?_ }
    obtain ⟨hw, hl, hd, hs, he⟩ := h.in_flight f hf
    exact ⟨hw, hl, by simp [hd], hs, he⟩
  · exact { h with }
  · exact State.inv_of_idle h.params_wf h.mem_sound h.tables_sound ((State.busy_eq_false_iff s).mp hb)

theorem State.Inv.hostStep {s t : State} {a : HostAction} (h : s.Inv) (ht : hostStep s a = .next t) :
    t.Inv := by
  obtain ⟨r, rfl⟩ | rfl | rfl | ⟨off, v, rfl⟩ | ⟨x, b, hx, -, rfl⟩ := hostStep_cases ht
  · exact { h with }
  · exact { h with }
  · exact { h with }
  · exact h.hostWriteReg off v
  · exact { h with
      mem_wf := Memory.write_wf x b h.mem_wf
      mem_inside := Memory.listed_write b h.mem_sound.inside hx }

theorem State.Inv.step {s t : State} (h : s.Inv) (ht : step s = .next t) : t.Inv := by
  obtain ht | rfl | ⟨a, ht⟩ := step_cases ht
  · exact h.popEvent.engineTurn ht
  · exact h.popEvent.resetPulse
  · exact h.popEvent.hostStep ht

/-- While BUSY the latched operands are the registers (10_state.md R39). -/
theorem State.Inv.latched_regs {s : State} (h : s.Inv) : s.latched.regs = s.regs := by
  cases hs : s.seq with
  | idle => rw [State.latched_of_idle hs]; rfl
  | busy f => rw [State.latched_of_seq hs]; exact (h.in_flight f hs).2.1

end Sys2Proof.Machine

namespace Sys2Proof.Proofs

open Sys2Proof Sys2Proof.Machine

/-- Settles O57: the invariant split into parameters, memory, tables and the command in flight, each
kept by every kind of event. -/
theorem stepKeepsTheInvariant : Obligations.StepKeepsTheInvariant :=
  ⟨fun _ _ h ht => h.step ht, fun s h =>
    ⟨risingCells_iff_pairwise.mp h.mem_wf, h.mem_inside, ascending_iff_pairwise.mp h.ft_ascending,
      h.ft_capacity, h.ft_sum, fun _ => by rw [operands_eq_latched, ← h.latched_regs]⟩⟩

end Sys2Proof.Proofs
end

section
/-! The register window: reads, writes, refusals, the packed words and the readouts of the tables
(10_state.md R20 to R24, R31 to R37). -/

namespace Sys2Proof.Machine

open Spec (Writes Reads)

/-! ### The register map (10_state.md R20) -/

theorem Reg.ofOffset_eq_some {off : Nat} {r : Reg} : Reg.ofOffset off = some r ↔ r.offset = off := by
  constructor
  · intro h
    simpa using List.find?_some h
  · rintro rfl
    exact Reg.ofOffset_offset r

theorem Reg.offset_range (r : Reg) : r.offset < 0x9C ∧ r.offset % 4 = 0 := by
  cases r <;> decide

theorem Reg.ofOffset_reserved {off : Nat} (h : 0x9C ≤ off) : Reg.ofOffset off = none := by
  cases hr : Reg.ofOffset off with
  | none => rfl
  | some r =>
    have := r.offset_range
    have := Reg.ofOffset_eq_some.mp hr
    omega

theorem Reg.readableWhileBusy_iff (r : Reg) : r.readableWhileBusy = true ↔ r.offset < 0x14 := by
  cases r <;> decide

theorem offset_of_mem_registerMap {p : Nat × Reg} (h : p ∈ Spec.registerMap) : p.2.offset = p.1 := by
  have hmap : Spec.registerMap = Reg.all.map fun r => (r.offset, r) := rfl
  rw [hmap] at h
  obtain ⟨r, -, rfl⟩ := List.mem_map.mp h
  rfl

/-! ### One access as a step -/

@[simp] theorem busy_setAgenda (s : State) (es : List Event) :
    State.busy { s with agenda := es } = s.busy := rfl

@[simp] theorem readReg_setAgenda (s : State) (es : List Event) (r : Reg) :
    State.readReg { s with agenda := es } r = s.readReg r := by
  cases r <;> rfl

theorem step_of_writes {s : State} {off : Nat} {v : Word} {es : List Event} (h : Writes s off v es)
    (hoff : off < 256) (ha : off % 4 = 0) :
    step s = .next (hostWriteReg { s with agenda := es } off v) := by
  rw [step_of_host h, popEvent_of_cons h]
  exact hostRegisterAccess_aligned { s with agenda := es }
    (hostWriteReg { s with agenda := es } · v) hoff ha

theorem step_of_reads {s : State} {off : Nat} {es : List Event} (h : Reads s off es)
    (hoff : off < 256) (ha : off % 4 = 0) :
    step s = .next (hostReadReg { s with agenda := es } off) := by
  rw [step_of_host h, popEvent_of_cons h]
  exact hostRegisterAccess_aligned { s with agenda := es }
    (hostReadReg { s with agenda := es }) hoff ha

/-- An access of another size, or one that is not aligned, is refused (10_state.md R37). -/
theorem hostRegisterAccess_refused (s : State) {size : AccessSize} {off : Nat} (act : Nat → State)
    (h : size ≠ .word ∨ off % 4 ≠ 0) :
    hostRegisterAccess s size (s.params.base + off) act =
      .refused (.registerAccess size (s.params.base + off)) := by
  have hneg : ¬ (size = .word ∧ s.params.base ≤ s.params.base + off ∧ off < 256 ∧ off % 4 = 0) := by
    rintro ⟨hsize, -, -, ha⟩
    rcases h with h | h
    exacts [h hsize, h ha]
  simp only [hostRegisterAccess, Nat.add_sub_cancel_left, if_neg hneg]

/-! ### Reads (10_state.md R35) -/

/-- A read answers the register's value while IDLE, and of a register below 0x14 at all times. -/
theorem step_of_reads_readable {s : State} {r : Reg} {es : List Event} (h : Reads s r.offset es)
    (hr : s.busy = false ∨ r.offset < 0x14) :
    step s = .next { s with agenda := es, response := .word (s.readReg r) } := by
  obtain ⟨hlt, ha⟩ := r.offset_range
  have hcond : (s.busy && !r.readableWhileBusy) = false := by
    rcases hr with hb | hr
    · simp [hb]
    · simp [r.readableWhileBusy_iff.mpr hr]
  rw [step_of_reads h (by omega) ha]
  simp [hostReadReg, Reg.ofOffset_offset, hcond, State.respond]

/-- While BUSY a read of any other register answers a free value. -/
theorem step_of_reads_unspecified {s : State} {r : Reg} {es : List Event} (h : Reads s r.offset es)
    (hb : s.busy = true) (hr : 0x14 ≤ r.offset) :
    step s = .next { s with
      agenda := es, response := .word (Config.freeWord s.draws), draws := s.draws + 1 } := by
  obtain ⟨hlt, ha⟩ := r.offset_range
  have hr : r.readableWhileBusy = false := by
    rw [← Bool.not_eq_true, r.readableWhileBusy_iff]
    omega
  rw [step_of_reads h (by omega) ha]
  simp [hostReadReg, Reg.ofOffset_offset, hb, hr, State.drawWord]

theorem hostReadReg_reserved (s : State) {off : Nat} (h : 0x9C ≤ off) :
    hostReadReg s off = s.respond (.word 0) := by
  simp [hostReadReg, Reg.ofOffset_reserved h]

/-! ### Writes (10_state.md R36) -/

theorem hostWriteReg_cmd (s : State) (v : Word) : hostWriteReg s 0x08 v = s.writeCmd v := rfl

theorem hostWriteReg_status (s : State) (v : Word) :
    hostWriteReg s 0x0C v = { s with status := s.status.writeOneToClear v } := rfl

theorem hostWriteReg_ctrl (s : State) (v : Word) :
    hostWriteReg s 0x10 v = { s with ctrl := Ctrl.ofWord v } := rfl

/-- Any other register is written while IDLE only. -/
theorem hostWriteReg_plain (s : State) {r : Reg} (v : Word)
    (h : r.offset ∉ [0x08, 0x0C, 0x10]) :
    hostWriteReg s r.offset v = if s.busy then s else s.writePlain r v := by
  cases r with
  | cmd | status | ctrl => exact absurd (by decide) h
  | _ => rfl

/-- The registers that a host cannot write ignore the write. -/
theorem writePlain_readOnly (s : State) {r : Reg} (v : Word)
    (h : r.offset ∉ [0x14, 0x18, 0x1C, 0x20, 0x28, 0x2C, 0x30, 0x34, 0x38, 0x3C, 0x40, 0x64, 0x80]) :
    s.writePlain r v = s := by
  cases r with
  | srcAddr | srcLen | dstAddr | dstCap | qstep | imgWidth | imgHeight | audChannels | audSwidth
  | audRate | audFrames | tblIndex | nodeIndex => exact absurd (by decide) h
  | _ => rfl

/-- While BUSY only CMD, STATUS and CTRL take a write. -/
theorem hostWriteReg_busy {s : State} {off : Nat} (v : Word) (hb : s.busy = true)
    (h : off ∉ [0x08, 0x0C, 0x10]) : hostWriteReg s off v = s := by
  cases hr : Reg.ofOffset off with
  | none => simp [hostWriteReg, hr]
  | some r =>
    obtain rfl := Reg.ofOffset_eq_some.mp hr
    rw [hostWriteReg_plain s v h, if_pos hb]

/-- A reserved offset or a register that is not writable ignores the write. -/
theorem hostWriteReg_ignored {s : State} {off : Nat} (v : Word)
    (h : off ∉ [0x08, 0x0C, 0x10, 0x14, 0x18, 0x1C, 0x20, 0x28, 0x2C, 0x30, 0x34, 0x38, 0x3C, 0x40,
      0x64, 0x80]) : hostWriteReg s off v = s := by
  cases hr : Reg.ofOffset off with
  | none => simp [hostWriteReg, hr]
  | some r =>
    obtain rfl := Reg.ofOffset_eq_some.mp hr
    rw [hostWriteReg_plain s v fun hmem => h (List.mem_append_left _ hmem),
      writePlain_readOnly s v fun hmem => h (List.mem_append_right [0x08, 0x0C, 0x10] hmem), ite_self]

/-- While IDLE a host write of a writable register stores the value. -/
theorem step_of_writes_plain {s : State} {r : Reg} {v : Word} {es : List Event}
    (h : Writes s r.offset v es) (hr : r.offset ∉ [0x08, 0x0C, 0x10]) (hb : s.busy = false) :
    step s = .next (State.writePlain { s with agenda := es } r v) := by
  obtain ⟨hlt, ha⟩ := r.offset_range
  rw [step_of_writes h (by omega) ha, hostWriteReg_plain _ v hr, busy_setAgenda, hb, if_neg (by decide)]

theorem writeOneToClear_eq (st : Status) (v : Word) :
    st.writeOneToClear v = { st with
      done := if v.getLsbD 1 then false else st.done
      lost := if v.getLsbD 2 then false else st.lost } := by
  unfold Status.writeOneToClear
  congr 1
  · cases v.getLsbD 1 <;> simp
  · cases v.getLsbD 2 <;> simp

/-! ### The status and control words (10_state.md R23, R24) -/

/-- The STATUS word, bit by bit. -/
theorem getLsbD_statusWord (s : State) (i : Nat) : s.statusWord.getLsbD i =
    match i with
    | 0 => s.busy
    | 1 => s.status.done
    | 2 => s.status.lost
    | 3 => s.status.sat
    | i + 4 => decide (4 ≤ i) && s.status.err.code.getLsbD (i - 4) := by
  simp only [State.statusWord, BitVec.getLsbD_append]
  rcases i with _ | _ | _ | _ | i
  · simp
  · simp
  · simp
  · simp
  · rcases Nat.lt_or_ge i 4 with hi | hi
    · simp [hi, Nat.not_le.mpr hi]
    · simpa [hi, Nat.not_lt.mpr hi] using BitVec.lt_of_getLsbD

theorem getLsbD_ctrlWord (s : State) (i : Nat) : s.ctrlWord.getLsbD i =
    match i with
    | 0 => s.ctrl.irqEn
    | 1 => s.ctrl.qfloor
    | _ + 2 => false := by
  simp only [State.ctrlWord, BitVec.getLsbD_append]
  rcases i with _ | _ | i <;> simp

theorem getLsbD_three {i : Nat} (h : i < 32) : (3#32).getLsbD i = decide (i < 2) := by
  rw [BitVec.getLsbD_ofNat, decide_eq_true h, Bool.true_and]
  exact Nat.testBit_two_pow_sub_one 2 i

/-- CTRL reads back bits 1 and 0 of what was written. -/
theorem ctrlWord_ofWord {s : State} {v : Word} (h : s.ctrl = Ctrl.ofWord v) :
    s.ctrlWord = v &&& 3#32 := by
  apply BitVec.eq_of_getLsbD_eq
  intro i hi
  rw [getLsbD_ctrlWord, h, BitVec.getLsbD_and, getLsbD_three hi]
  rcases i with _ | _ | i <;> simp [Ctrl.ofWord]

/-! ### The readouts of the tables (10_state.md R31, R33, R34) -/

/-- TBL_STATE, bit by bit. -/
theorem getLsbD_stateWord (T : Tables) (i : Nat) : T.stateWord.getLsbD i =
    match i with
    | 0 => decide (0 < T.ft.length)
    | 1 => T.treeValid
    | 2 => T.ctValid
    | _ + 3 => false := by
  simp only [Tables.stateWord, BitVec.getLsbD_append]
  rcases i with _ | _ | _ | i
  · cases T.ft <;> simp
  · simp
  · simp
  · simp

theorem foldl_codeNum (c : Code) (acc : Nat) :
    c.foldl (fun acc b => 2 * acc + b.toNat) acc = acc * 2 ^ c.length + codeNum c := by
  induction c generalizing acc with
  | nil => simp [codeNum]
  | cons b c ih =>
    have hcons : codeNum (b :: c) = b.toNat * 2 ^ c.length + codeNum c := by
      rw [← ih]
      simp [codeNum]
    rw [List.foldl_cons, ih, hcons, List.length_cons, pow_succ]
    ring

/-- The first bit is the most significant one (00_scope.md R12). -/
theorem codeNum_cons (b : Bool) (c : Code) :
    codeNum (b :: c) = b.toNat * 2 ^ c.length + codeNum c := by
  simpa [codeNum] using foldl_codeNum c b.toNat

/-- No tree readout without a valid tree, nor at or past the end of the arena. -/
theorem selectedNode_eq_none {s : State}
    (h : s.tables.treeValid = false ∨ 2 * s.tables.ft.length - 1 ≤ s.nodeIndex.toNat) :
    s.selectedNode = none := by
  rw [State.selectedNode, if_neg]
  rw [Bool.and_eq_true, decide_eq_true_eq]
  rintro ⟨hv, hlt⟩
  rcases h with h | h
  · simp [h] at hv
  · omega

theorem selectedNode_eq {s : State} (hv : s.tables.treeValid = true)
    (hlt : s.nodeIndex.toNat < 2 * s.tables.ft.length - 1) :
    s.selectedNode = s.tables.tree.nodes[s.nodeIndex.toNat]? := by
  rw [State.selectedNode, if_pos (by simp [hv, hlt])]

end Sys2Proof.Machine

namespace Sys2Proof.Proofs

open Sys2Proof Sys2Proof.Machine

/-- Settles O9: the window's one condition fails for every such access. -/
theorem otherRegisterAccessIsRefused : Obligations.OtherRegisterAccessIsRefused := by
  intro s size off v es _ hbad
  constructor
  · intro h
    rw [step_of_host h]
    exact hostRegisterAccess_refused s.popEvent (hostReadReg s.popEvent) hbad
  · intro h
    rw [step_of_host h]
    exact hostRegisterAccess_refused s.popEvent (hostWriteReg s.popEvent · v) hbad

/-- Settles O10: the map's offsets name its registers, and only those below 0x14 answer while BUSY. -/
theorem hostReadFollowsItsRule : Obligations.HostReadFollowsItsRule := by
  intro s es
  refine ⟨fun p hp h hr => ?_, fun p hp h hb hoff => ?_, fun off hlo hhi ha h _ => ?_, ?_⟩
  · rw [← offset_of_mem_registerMap hp] at h hr
    exact step_of_reads_readable h hr
  · rw [← offset_of_mem_registerMap hp] at h hoff
    exact step_of_reads_unspecified h hb hoff
  · rw [step_of_reads h hhi ha, hostReadReg_reserved _ hlo]
    rfl
  · simp only [Spec.storedValues, List.forall_mem_cons]
    exact ⟨rfl, rfl, rfl, rfl, rfl, rfl, rfl, rfl, rfl, rfl, rfl, rfl, rfl, rfl, rfl, rfl, rfl, rfl, rfl,
      rfl, fun _ h => by cases h⟩

/-- Settles O11: CMD, STATUS and CTRL at all times, the plain registers while IDLE, nothing else. -/
theorem hostWriteFollowsItsRule : Obligations.HostWriteFollowsItsRule := by
  intro s v es
  refine ⟨fun h hb => ?_, fun h hb => ?_, fun h => ?_, fun h => ?_, fun off hlt ha hoff h hb => ?_,
    fun hb => ⟨fun h => step_of_writes_plain (r := .srcAddr) h (by decide) hb,
      fun h => step_of_writes_plain (r := .srcLen) h (by decide) hb,
      fun h => step_of_writes_plain (r := .dstAddr) h (by decide) hb,
      fun h => step_of_writes_plain (r := .dstCap) h (by decide) hb,
      fun h => step_of_writes_plain (r := .qstep) h (by decide) hb,
      fun h => step_of_writes_plain (r := .imgWidth) h (by decide) hb,
      fun h => step_of_writes_plain (r := .imgHeight) h (by decide) hb,
      fun h => step_of_writes_plain (r := .audChannels) h (by decide) hb,
      fun h => step_of_writes_plain (r := .audSwidth) h (by decide) hb,
      fun h => step_of_writes_plain (r := .audRate) h (by decide) hb,
      fun h => step_of_writes_plain (r := .audFrames) h (by decide) hb,
      fun h => step_of_writes_plain (r := .tblIndex) h (by decide) hb,
      fun h => step_of_writes_plain (r := .nodeIndex) h (by decide) hb,
      fun off hlt ha hoff h => ?_⟩⟩
  · rw [step_of_writes h (by decide) (by decide), hostWriteReg_cmd]
    exact congrArg _ (if_neg (by simp [hb]))
  · rw [step_of_writes h (by decide) (by decide), hostWriteReg_cmd]
    exact congrArg _ (if_pos hb)
  · rw [step_of_writes h (by decide) (by decide), hostWriteReg_status, writeOneToClear_eq]
  · rw [step_of_writes h (by decide) (by decide), hostWriteReg_ctrl]
    rfl
  · rw [step_of_writes h hlt ha, hostWriteReg_busy (s := { s with agenda := es }) v hb hoff]
  · rw [step_of_writes h hlt ha, hostWriteReg_ignored v hoff]

/-- Settles O12: both are readable while BUSY, and no write reaches them. -/
theorem identificationIsHardwired : Obligations.IdentificationIsHardwired := by
  intro s v es
  refine ⟨fun h => step_of_reads_readable (r := .id) h (.inr (by decide)),
    fun h => step_of_reads_readable (r := .version) h (.inr (by decide)), ?_⟩
  rintro (h | h) <;>
    rw [step_of_writes h (by decide) (by decide), hostWriteReg_ignored v (by decide)]

/-- Settles O13 by the word's bits. -/
theorem statusWordLayout : Obligations.StatusWordLayout := by
  intro s
  refine ⟨⟨fun hb => ?_, fun ⟨f, hf⟩ => State.busy_of_seq hf⟩, getLsbD_statusWord s 0,
    getLsbD_statusWord s 1, getLsbD_statusWord s 2, getLsbD_statusWord s 3, ?_, ?_, ?_⟩
  · cases hs : s.seq with
    | idle => rw [(State.busy_eq_false_iff s).mpr hs] at hb; cases hb
    | busy f => exact ⟨f, rfl⟩
  · refine BitVec.eq_of_getLsbD_eq fun i hi => ?_
    rw [BitVec.getLsbD_extractLsb', Nat.add_comm, State.readReg, getLsbD_statusWord]
    simp [hi]
  · refine BitVec.eq_of_getLsbD_eq fun i hi => ?_
    rw [BitVec.getLsbD_extractLsb', show 8 + i = i + 4 + 4 by omega, State.readReg, getLsbD_statusWord]
    simp [hi]
  · refine BitVec.eq_of_getLsbD_eq fun i _ => ?_
    rw [BitVec.getLsbD_extractLsb', show 12 + i = i + 8 + 4 by omega, State.readReg,
      getLsbD_statusWord]
    simp

/-- Settles O14: the write stores two bits and touches no command in flight. -/
theorem ctrlWriteTakesEffectAtOnce : Obligations.CtrlWriteTakesEffectAtOnce := by
  intro s v es h
  exact ⟨_, step_of_writes h (by decide) (by decide), rfl, rfl, ctrlWord_ofWord rfl, rfl⟩

/-- Settles O15 by the bits of TBL_STATE and the two cases of TREE_ROOT. -/
theorem tableStatusRegisters : Obligations.TableStatusRegisters := by
  intro s
  refine ⟨rfl, getLsbD_stateWord _ 0, getLsbD_stateWord _ 1, getLsbD_stateWord _ 2, ?_,
    fun hv => if_pos hv, fun hv => if_neg (by simp [hv])⟩
  refine BitVec.eq_of_getLsbD_eq fun i _ => ?_
  rw [BitVec.getLsbD_extractLsb', Nat.add_comm, State.readReg, getLsbD_stateWord]
  simp

/-- Settles O16: the entry and the code that TBL_INDEX selects, or their absence, fix every register. -/
theorem tableReadoutWindow : Obligations.TableReadoutWindow := by
  intro s
  refine ⟨fun e he => ?_, fun hlen => ?_, rfl, fun c b => codeNum_cons b c⟩
  · have hentry : s.tblEntry = some e := he
    refine ⟨?_, ?_, ?_, fun c hv hc => ?_, fun hv => ?_⟩
    · simp [State.readReg, hentry]
    · simp [State.readReg, State.tblFreq, hentry]
    · simp [State.readReg, State.tblFreq, hentry]
    · have hcode : s.tblCode = some c := by simp [State.tblCode, hv, hentry, hc]
      simp [State.readReg, State.tblCodeValue, hcode]
    · have hcode : s.tblCode = none := by simp [State.tblCode, hv]
      simp [State.readReg, State.tblCodeValue, hcode]
  · have hentry : s.tblEntry = none := List.getElem?_eq_none hlen
    have hcode : s.tblCode = none := by simp [State.tblCode, hentry]
    simp [State.readReg, State.tblFreq, State.tblCodeValue, hentry, hcode]

/-- Settles O17: every NODE register is a function of the node selected. -/
theorem treeReadoutWindow : Obligations.TreeReadoutWindow := by
  intro s
  refine ⟨fun h => ?_, fun hv hlt => ⟨fun x f hnode => ?_, fun f l r hnode => ?_⟩⟩
  · have hsel := selectedNode_eq_none h
    simp [State.readReg, hsel, nodeKind, nodeFreqOf, nodeLeft, nodeRight, nodeSym]
  · have hsel := (selectedNode_eq hv hlt).trans hnode
    simp [State.readReg, hsel, nodeKind, nodeFreqOf, nodeLeft, nodeRight, nodeSym, Node.freq]
  · have hsel := (selectedNode_eq hv hlt).trans hnode
    simp [State.readReg, hsel, nodeKind, nodeFreqOf, nodeLeft, nodeRight, nodeSym, Node.freq]

end Sys2Proof.Proofs
end

section
/-! Buffer memory (20_memory.md): the host's accesses, the range checks, and what a command reads and
writes of it. -/

namespace Sys2Proof.Machine

open Spec (SrcBad DstBad InSrc InDst)

/-! ### The host's accesses (20_memory.md R69, 70_reset_and_hazards.md R243) -/

theorem inSrc_iff (s : State) (a : Nat) : inSrc s.latched.regs a = true ↔ InSrc s a := by
  simp [inSrc, Spec.InSrc, State.src, State.len]

theorem inDst_iff (s : State) (a : Nat) : inDst s.latched.regs a = true ↔ InDst s a := by
  simp [inDst, Spec.InDst, State.dst, State.cap]

theorem beingWritten_iff (s : State) (a : Nat) :
    s.beingWritten a = true ↔ s.busy = true ∧ InDst s a ∧ ¬ InSrc s a := by
  rw [State.beingWritten, Bool.and_eq_true, Bool.and_eq_true, inDst_iff, Bool.not_eq_true',
    ← Bool.not_eq_true, inSrc_iff, and_assoc]

theorem hazardAt_iff (s : State) (a : Nat) :
    s.hazardAt a = true ↔ s.busy = true ∧ (InSrc s a ∨ InDst s a) := by
  rw [State.hazardAt, Bool.and_eq_true, Bool.or_eq_true, inSrc_iff, inDst_iff]

/-- A host read of a byte that exists: a free value where the engine may be writing. -/
theorem step_of_readMem {s : State} {a : Nat} {es : List Event} (ha : a < s.params.memSize)
    (h : s.agenda = .host (.readMem a) :: es) :
    step s = .next (if s.beingWritten a
      then { s with
        agenda := es, response := .byte (Config.freeByte s.draws), draws := s.draws + 1 }
      else { s with agenda := es, response := .byte (s.mem.read a) }) := by
  rw [step_of_host h, popEvent_of_cons h, hostStep, hostReadByte, if_neg (Nat.not_le.mpr ha)]
  exact (apply_ite _ _ _ _).symm

/-- A host write of a byte that exists: the byte is written unless a latched range holds it. -/
theorem step_of_writeMem {s : State} {a : Nat} {b : Byte} {es : List Event}
    (ha : a < s.params.memSize) (h : s.agenda = .host (.writeMem a b) :: es) :
    step s = if s.hazardAt a then .fault (.hazard a)
      else .next { s with agenda := es, mem := s.mem.write a b } := by
  rw [step_of_host h, popEvent_of_cons h, hostStep, hostWriteByte, if_neg (Nat.not_le.mpr ha)]
  rfl

/-! ### The range checks (20_memory.md R64) -/

theorem checkSrc_of_bad {s : State} (h : SrcBad s) : checkSrc s = .error .addressError :=
  raiseIf_error.mpr ⟨by simpa [Spec.SrcBad, srcInMemory, State.src, State.len] using h, rfl⟩

theorem checkSrc_addressError_or_ok (s : State) :
    checkSrc s = .error .addressError ∨ checkSrc s = .ok () := by
  unfold checkSrc raiseIf
  split
  exacts [.inl rfl, .inr rfl]

theorem checkDst_of_bad {s : State} (h : DstBad s) : checkDst s = .error .addressError := by
  rw [checkDst, raiseIf_bind_error, raiseIf_error]
  by_cases hmem : dstInMemory s.params s.latched.regs = true
  · refine .inr ⟨by simp [hmem], ?_, rfl⟩
    simpa [Spec.DstBad, dstInMemory, rangesOverlap, State.src, State.len, State.dst, State.cap,
      Nat.not_lt.mpr (of_decide_eq_true hmem)] using h
  · exact .inl ⟨by simp [hmem], rfl⟩

/-- Every command that reads memory begins with its source check. -/
theorem resultOf_begins_with_checkSrc {i : Instr} (s : State) (h : i ∈ Spec.readsMemory) :
    ∃ k, resultOf i s = checkSrc s >>= k := by
  simp only [Spec.readsMemory, List.mem_cons, List.not_mem_nil, or_false] at h
  rcases h with rfl | rfl | rfl | rfl | rfl | rfl | rfl | rfl <;> exact ⟨_, rfl⟩

/-- Every command that writes memory begins with its source and its destination check. -/
theorem resultOf_begins_with_checkSrc_checkDst {i : Instr} (s : State) (h : i ∈ Spec.writesMemory) :
    ∃ k, resultOf i s = checkSrc s >>= fun _ => checkDst s >>= k := by
  simp only [Spec.writesMemory, List.mem_cons, List.not_mem_nil, or_false] at h
  rcases h with rfl | rfl | rfl | rfl | rfl | rfl <;> exact ⟨_, rfl⟩

/-! ### What a command reads (20_memory.md R67) -/

/-- `s` with another buffer memory. -/
def State.withMem (s : State) (m : Memory) : State := { s with mem := m }

@[simp] theorem State.withMem_latched (s : State) (m : Memory) :
    (s.withMem m).latched = s.latched := rfl
@[simp] theorem State.withMem_audioParams (s : State) (m : Memory) :
    (s.withMem m).audioParams = s.audioParams := rfl

/-- `m` holds the source range's bytes as `s` does. -/
def AgreesOnSource (s : State) (m : Memory) : Prop :=
  ∀ i, i < s.len → m.read (s.src + i) = s.mem.read (s.src + i)

section
variable {s : State} {m : Memory} (h : AgreesOnSource s m)
include h

theorem srcByte_withMem {i : Nat} (hi : i < s.len) : (s.withMem m).srcByte i = s.srcByte i := h i hi

theorem srcRead_withMem {i n : Nat} (hi : i + n ≤ s.len) :
    (s.withMem m).srcRead i n = s.srcRead i n :=
  Memory.readBE_congr fun j hj => by
    have := h (i + j) (by omega)
    rwa [← Nat.add_assoc] at this

theorem srcReadSigned_withMem {i n : Nat} (hi : i + n ≤ s.len) :
    (s.withMem m).srcReadSigned i n = s.srcReadSigned i n :=
  congrArg (signedOf (8 * n)) (srcRead_withMem h hi)

theorem symbols_withMem : (s.withMem m).symbols = s.symbols :=
  List.map_congr_left fun k hk => by
    have hk : k < s.len / 4 := List.mem_range.mp hk
    rw [srcRead_withMem h (by omega)]

theorem pixels_withMem : (s.withMem m).pixels = s.pixels :=
  List.map_congr_left fun k hk => by
    have hk : k < s.len / 3 := List.mem_range.mp hk
    rw [srcByte_withMem h (by omega), srcByte_withMem h (by omega), srcByte_withMem h (by omega)]

theorem samples_withMem : (s.withMem m).samples = s.samples :=
  List.map_congr_left fun k hk => by
    have hk : k < s.len / 2 := List.mem_range.mp hk
    rw [srcReadSigned_withMem h (by omega)]

theorem headerEntries_withMem {n : Nat} (hn : 4 + 12 * n ≤ s.len) :
    (s.withMem m).headerEntries n = s.headerEntries n :=
  List.map_congr_left fun k hk => by
    have hk := List.mem_range.mp hk
    rw [srcRead_withMem h (by omega), srcRead_withMem h (by omega)]

theorem imgRuns_withMem {rc : Nat} (hrc : 12 + 4 * rc ≤ s.len) :
    (s.withMem m).imgRuns rc = s.imgRuns rc :=
  List.map_congr_left fun j hj => by
    have hj := List.mem_range.mp hj
    rw [srcByte_withMem h (by omega), srcByte_withMem h (by omega), srcByte_withMem h (by omega),
      srcByte_withMem h (by omega)]

theorem audRuns_withMem {rc : Nat} (hrc : 20 + 8 * rc ≤ s.len) :
    (s.withMem m).audRuns rc = s.audRuns rc :=
  List.map_congr_left fun j hj => by
    have hj := List.mem_range.mp hj
    rw [srcReadSigned_withMem h (by omega), srcRead_withMem h (by omega)]

end

/-- What follows a check need only agree where the check passes. -/
theorem raiseIf_bind_congr {α : Type} {bad : Bool} {e : ErrCode} {k k' : Unit → Except ErrCode α}
    (h : bad = false → k () = k' ()) : (raiseIf bad e >>= k) = (raiseIf bad e >>= k') := by
  cases bad with
  | false => exact h rfl
  | true => rfl

/-- The image parser reads its header only after it has checked that the source holds one. -/
theorem parseImg_withMem {s : State} {m : Memory} (h : AgreesOnSource s m) :
    parseImg (s.withMem m) = parseImg s := by
  refine raiseIf_bind_congr fun hlen => ?_
  have hlen : 12 ≤ s.len := Nat.not_lt.mp (of_decide_eq_false hlen)
  rw [srcRead_withMem h (i := 0) (by omega), srcRead_withMem h (i := 4) (by omega),
    srcRead_withMem h (i := 8) (by omega)]
  refine raiseIf_bind_congr fun hrc => ?_
  have hrc : 12 + 4 * s.srcRead 8 4 ≤ s.len := Nat.not_lt.mp (of_decide_eq_false hrc)
  rw [imgRuns_withMem h hrc]
  rfl

/-- The audio parser reads its header only after it has checked that the source holds one. -/
theorem parseAud_withMem {s : State} {m : Memory} (h : AgreesOnSource s m) :
    parseAud (s.withMem m) = parseAud s := by
  refine raiseIf_bind_congr fun hlen => ?_
  have hlen : 20 ≤ s.len := Nat.not_lt.mp (of_decide_eq_false hlen)
  rw [srcRead_withMem h (i := 0) (by omega), srcRead_withMem h (i := 2) (by omega),
    srcRead_withMem h (i := 4) (by omega), srcRead_withMem h (i := 8) (by omega),
    srcRead_withMem h (i := 12) (by omega), srcRead_withMem h (i := 16) (by omega)]
  refine raiseIf_bind_congr fun hrc => ?_
  have hrc : 20 + 8 * s.srcRead 16 4 ≤ s.len := Nat.not_lt.mp (of_decide_eq_false hrc)
  rw [audRuns_withMem h hrc]
  rfl

/-- `r'`, with buffer memory `m`, ends as `r` does from `s`: with the same error, or with the same
state but for memory, after the same bytes were written. -/
inductive SameEnd (s : State) (m : Memory) : Result → Result → Prop
  | raise (e : ErrCode) : SameEnd s m (.error e) (.error e)
  | complete {u : State} {out : Nat} (bs : List Byte) (hmem : u.mem = (s.storeBytes bs).mem)
      (hlen : bs.length = out) :
      SameEnd s m (.ok (u, out)) (.ok (u.withMem ((s.withMem m).storeBytes bs).mem, out))

theorem SameEnd.eq_ok {s u : State} {m : Memory} {out : Nat} {r : Result}
    (h : SameEnd s m (.ok (u, out)) r) : ∃ bs : List Byte, u.mem = (s.storeBytes bs).mem ∧
      bs.length = out ∧ r = .ok (u.withMem ((s.withMem m).storeBytes bs).mem, out) := by
  cases h with
  | complete bs hmem hlen => exact ⟨bs, hmem, hlen, rfl⟩

theorem SameEnd.eq_error {s : State} {m : Memory} {e : ErrCode} {r : Result}
    (h : SameEnd s m (.error e) r) : r = .error e := by
  cases h with
  | raise => rfl

/-- The bytes and the result registers that an encoder leaves. -/
theorem SameEnd.encoded (s : State) (m : Memory) (bs : List Byte) (r : ResultRegs) :
    SameEnd s m (.ok ((s.storeBytes bs).setResult r, bs.length))
      (.ok (((s.withMem m).storeBytes bs).setResult r, bs.length)) :=
  .complete bs rfl rfl

/-- A common first part: what follows need only end the same where that part succeeds. -/
theorem SameEnd.bind {α : Type} {s : State} {m : Memory} {x : Except ErrCode α} {k k' : α → Result}
    (h : ∀ a, x = .ok a → SameEnd s m (k a) (k' a)) : SameEnd s m (x >>= k) (x >>= k') := by
  cases x with
  | ok a => exact h a rfl
  | error e => exact .raise e

theorem freqLoad_sameEnd {s : State} {m : Memory} (h : AgreesOnSource s m) :
    SameEnd s m (freqLoad s) (freqLoad (s.withMem m)) := by
  refine .bind fun _ _ => .bind fun _ hlen => ?_
  have hlen : 4 ≤ s.len := Nat.not_lt.mp (of_decide_eq_false (raiseIf_ok.mp hlen))
  rw [srcRead_withMem h (by omega)]
  refine .bind fun _ _ => .bind fun _ hn => ?_
  have hn : 4 + 12 * s.srcRead 0 4 ≤ s.len := Nat.not_lt.mp (of_decide_eq_false (raiseIf_ok.mp hn))
  rw [headerEntries_withMem h hn]
  exact .bind fun _ _ => .bind fun _ _ => .bind fun _ _ => .complete [] rfl rfl

/-- A command reads only its source range. -/
theorem resultOf_sameEnd (i : Instr) {s : State} {m : Memory} (h : AgreesOnSource s m) :
    SameEnd s m (resultOf i s) (resultOf i (s.withMem m)) := by
  cases i with
  | nop => exact .complete [] rfl rfl
  | freqCount =>
    simp only [resultOf, freqCount, symbols_withMem h]
    exact .bind fun _ _ => .bind fun _ _ => .bind fun _ _ => .bind fun _ _ => .complete [] rfl rfl
  | freqLoad => exact freqLoad_sameEnd h
  | treeBuild => exact .bind fun _ _ => .complete [] rfl rfl
  | codeGen => exact .bind fun _ _ => .bind fun _ _ => .complete [] rfl rfl
  | huffPack =>
    simp only [resultOf, huffPack, symbols_withMem h]
    exact .bind fun _ _ => .bind fun _ _ => .bind fun _ _ => .bind fun _ _ => .bind fun _ _ =>
      .bind fun _ _ => .bind fun _ _ => .encoded ..
  | textEncode =>
    simp only [resultOf, textEncode, symbols_withMem h]
    exact .bind fun _ _ => .bind fun _ _ => .bind fun _ _ => .bind fun _ _ => .bind fun _ _ =>
      .bind fun _ _ => .bind fun _ _ => .complete _ rfl rfl
  | imgEncode =>
    simp only [resultOf, imgEncode, pixels_withMem h]
    exact .bind fun _ _ => .bind fun _ _ => .bind fun _ _ => .bind fun _ _ => .bind fun _ _ =>
      .bind fun _ _ => .encoded ..
  | imgDecode =>
    simp only [resultOf, imgDecode, parseImg_withMem h]
    exact .bind fun _ _ => .bind fun _ _ => .bind fun a ha => .bind fun _ _ => .complete _ rfl
      (by rw [length_flatMap_pixelBytes, length_expand, parseImg_total ha])
  | audEncode =>
    simp only [resultOf, audEncode, samples_withMem h,
      State.withMem_latched, State.withMem_audioParams]
    exact .bind fun _ _ => .bind fun _ _ => .bind fun _ _ => .bind fun _ _ => .bind fun _ _ =>
      .bind fun _ _ => .bind fun _ _ => .bind fun _ _ => .encoded ..
  | audDecode =>
    simp only [resultOf, audDecode, parseAud_withMem h]
    exact .bind fun _ _ => .bind fun _ _ => .bind fun a ha => .bind fun _ _ => .complete _ rfl
      (by rw [length_flatMap_sampleBytes, length_expand, runTotal_map, parseAud_total ha])
  | clearTables => exact .complete [] rfl rfl

/-! ### What a command writes (20_memory.md R67) -/

/-- OUT_LEN is the number of bytes that a successful command reports, with no wrap. -/
theorem resultOf_ok_out_le {i : Instr} {s u : State} {out : Nat} (h : resultOf i s = .ok (u, out)) :
    out ≤ s.cap := by
  obtain ⟨-, rfl⟩ | ⟨_, -, -, hcap, -⟩ := resultOf_ok_mem h
  exacts [Nat.zero_le _, hcap]

theorem resultOf_ok_outLen {i : Instr} {s u : State} {out : Nat} (h : resultOf i s = .ok (u, out)) :
    (u.succeeded out).outLen.toNat = out :=
  (BitVec.toNat_ofNat ..).trans
    (Nat.mod_eq_of_lt (Nat.lt_of_le_of_lt (resultOf_ok_out_le h) s.latched.regs.dstCap.isLt))

theorem exec_outLen_le_cap {i : Instr} {s t : State} (h : exec i s = .next t) :
    t.outLen.toNat ≤ s.cap := by
  obtain ⟨u, out, hr, rfl⟩ | ⟨e, -, rfl⟩ := exec_cases h
  · rw [resultOf_ok_outLen hr]
    exact resultOf_ok_out_le hr
  · exact Nat.zero_le _

/-- A command writes OUT_LEN bytes at DST_ADDR, and any memory that agrees on the source range gives
the same bytes and the same state around them. -/
theorem exec_withMem {i : Instr} {s t : State} {m : Memory} (h : exec i s = .next t)
    (hm : AgreesOnSource s m) :
    ∃ bs : List Byte, bs.length = t.outLen.toNat ∧ t.mem = (s.storeBytes bs).mem ∧
      exec i (s.withMem m) = .next (t.withMem ((s.withMem m).storeBytes bs).mem) := by
  have hend := resultOf_sameEnd i hm
  obtain ⟨u, out, hr, rfl⟩ | ⟨e, hr, rfl⟩ := exec_cases h
  · rw [hr] at hend
    obtain ⟨bs, hmem, hlen, hr'⟩ := hend.eq_ok
    exact ⟨bs, hlen.trans (resultOf_ok_outLen hr).symm, hmem, exec_of_ok hr'⟩
  · rw [hr] at hend
    exact ⟨[], rfl, rfl, exec_of_error hend.eq_error⟩

/-- A byte inside the written range does not depend on what memory held before. -/
theorem Memory.read_writeBytes_congr (m m' : Memory) {a x : Nat} {bs : List Byte} (ha : a ≤ x)
    (hx : x < a + bs.length) : (m.writeBytes a bs).read x = (m'.writeBytes a bs).read x := by
  obtain ⟨i, rfl⟩ := Nat.exists_eq_add_of_le ha
  have hi : bs[i]? = some _ := List.getElem?_eq_getElem (by omega)
  rw [m.read_writeBytes_inside hi, m'.read_writeBytes_inside hi]

end Sys2Proof.Machine

namespace Sys2Proof.Proofs

open Sys2Proof Sys2Proof.Machine

/-- Settles O19: a read looks at the bytes being written, a write at the bytes of both ranges. -/
theorem hostMemoryAccess : Obligations.HostMemoryAccess := by
  intro s a b es ha
  refine ⟨fun h => ?_, fun h => ?_⟩
  · rw [step_of_readMem ha h]
    refine ⟨fun hfree => ?_, fun hb hdst hsrc => ?_⟩
    · have hno : ¬ s.beingWritten a = true := by
        rw [beingWritten_iff]
        rw [← Bool.not_eq_true] at hfree
        tauto
      rw [if_neg hno]
    · rw [if_pos ((beingWritten_iff s a).mpr ⟨hb, hdst, hsrc⟩)]
  · rw [step_of_writeMem ha h]
    refine ⟨fun hb hin => if_pos ((hazardAt_iff s a).mpr ⟨hb, hin⟩), fun hfree => ?_⟩
    have hno : ¬ s.hazardAt a = true := by
      rw [hazardAt_iff]
      rw [← Bool.not_eq_true] at hfree
      tauto
    exact ⟨_, if_neg hno, rfl, Memory.read_write_self _ _ _, fun a' => Memory.read_write_ne _ b⟩

/-- Settles O20: the command's first checks are those of its ranges. -/
theorem rangeChecksComeFirst : Obligations.RangeChecksComeFirst := by
  refine ⟨fun i s hi hbad => exec_of_error ?_, fun i s hi hbad => exec_of_error ?_⟩
  · obtain ⟨k, hk⟩ := resultOf_begins_with_checkSrc s hi
    rw [hk, checkSrc_of_bad hbad]
    rfl
  · obtain ⟨k, hk⟩ := resultOf_begins_with_checkSrc_checkDst s hi
    rw [hk, checkDst_of_bad hbad]
    obtain hsrc | hsrc := checkSrc_addressError_or_ok s <;> rw [hsrc] <;> rfl

/-- Settles O50: the bytes written are the same whatever lies outside the source range, and they fill
exactly the OUT_LEN bytes at DST_ADDR. -/
theorem commandsStayInTheirRanges : Obligations.CommandsStayInTheirRanges := by
  intro i s t ht
  rw [spec_dst_eq, spec_cap_eq]
  refine ⟨fun a ha => ?_, exec_outLen_le_cap ht, fun he => ?_, fun m hm => ?_⟩
  · obtain ⟨bs, hlen, hmem, -⟩ := exec_withMem (m := s.mem) ht fun _ _ => rfl
    rw [hmem]
    exact Memory.read_writeBytes_outside _ (by rwa [hlen])
  · rw [(exec_of_err_ne_none ht he).2, State.failed_mem]
  · have hm : AgreesOnSource s m := fun k hk => hm _ (by simp [Spec.InSrc, hk])
    obtain ⟨bs, hlen, hmem, hexec⟩ := exec_withMem ht hm
    refine ⟨_, hexec, rfl, fun a hlo hhi => ?_⟩
    rw [hmem]
    exact Memory.read_writeBytes_congr _ _ hlo (by rwa [hlen])

end Sys2Proof.Proofs
end

section
/-! The decoder and the encoder of a command word (30_encoding.md R80 to R82, R85). -/

namespace Sys2Proof

/-! ### The OP field (30_encoding.md R82) -/

/-- The opcodes are 0x00 to 0x0B, in the order of `Instr.all`. -/
theorem exists_opcode_eq {op : BitVec 8} (h : op.toNat ≤ 0x0B) : ∃ i, opcode i = op := by
  have hall : ∀ k : Fin 12, (opcode Instr.all[k]).toNat = k := by decide
  exact ⟨_, BitVec.eq_of_toNat_eq (hall ⟨op.toNat, Nat.lt_succ_of_le h⟩)⟩

@[simp] theorem decodeOp_opcode (i : Instr) : decodeOp (opcode i) = .ok i := by
  cases i <;> rfl

theorem decodeOp_reserved {op : BitVec 8} (h : 0x0B < op.toNat) :
    decodeOp op = .error .reservedOpcode := by
  unfold decodeOp
  split
  case h_13 => rfl
  all_goals omega

theorem decodeOp_eq_ok {op : BitVec 8} {i : Instr} : decodeOp op = .ok i ↔ op = opcode i := by
  refine ⟨fun h => ?_, fun h => h ▸ decodeOp_opcode i⟩
  obtain hop | hop := Nat.lt_or_ge 0x0B op.toNat
  · rw [decodeOp_reserved hop] at h
    cases h
  · obtain ⟨j, rfl⟩ := exists_opcode_eq hop
    rw [decodeOp_opcode, Except.ok.injEq] at h
    rw [h]

/-! ### The word (30_encoding.md R80, R81) -/

@[simp] theorem mbzField_append (m : BitVec 24) (op : BitVec 8) : mbzField (m ++ op) = m :=
  BitVec.extractLsb'_append_eq_left

@[simp] theorem opField_append (m : BitVec 24) (op : BitVec 8) : opField (m ++ op) = op :=
  BitVec.extractLsb'_append_eq_right

/-- A word is its two fields. -/
theorem mbzField_append_opField (w : Word) : mbzField w ++ opField w = w :=
  BitVec.extractLsb'_append_extractLsb'

theorem decode_of_mbz_zero {w : Word} (h : mbzField w = 0#24) : decode w = decodeOp (opField w) :=
  if_pos h

theorem decode_of_mbz_ne_zero {w : Word} (h : mbzField w ≠ 0#24) :
    decode w = .error .mbzNotZero :=
  if_neg h

@[simp] theorem decode_zero_append (op : BitVec 8) : decode (0#24 ++ op) = decodeOp op := by
  rw [decode_of_mbz_zero (mbzField_append _ _), opField_append]

@[simp] theorem decode_encode (i : Instr) : decode (encode i) = .ok i := by
  rw [encode, decode_zero_append, decodeOp_opcode]

theorem decode_eq_ok {w : Word} {i : Instr} : decode w = .ok i ↔ w = encode i := by
  refine ⟨fun h => ?_, fun h => h ▸ decode_encode i⟩
  by_cases hm : mbzField w = 0#24
  · rw [decode_of_mbz_zero hm, decodeOp_eq_ok] at h
    rw [← mbzField_append_opField w, hm, h, encode]
  · rw [decode_of_mbz_ne_zero hm] at h
    cases h

end Sys2Proof

namespace Sys2Proof.Proofs

open Sys2Proof Sys2Proof.Machine

/-- Settles O2: the words that decode are the encodings, and a word that does not fails by the first
of its fields that is wrong. -/
theorem decodeAcceptsExactlyTheEncodings : Obligations.DecodeAcceptsExactlyTheEncodings := by
  refine ⟨decode_encode, fun _ _ => decode_eq_ok.mp, fun _ => decode_of_mbz_ne_zero,
    fun w hm hop => ?_, fun _ hm hop => (decode_of_mbz_zero hm).trans (decodeOp_reserved hop)⟩
  obtain ⟨i, hi⟩ := exists_opcode_eq hop
  exact ⟨i, (decode_of_mbz_zero hm).trans (decodeOp_eq_ok.mpr hi.symm), hi⟩

/-- Settles O1: each row is the encoding of its command. -/
theorem decodeIsTheOpcodeMap : Obligations.DecodeIsTheOpcodeMap :=
  ⟨decode_encode .nop, decode_encode .freqCount, decode_encode .freqLoad, decode_encode .treeBuild,
    decode_encode .codeGen, decode_encode .huffPack, decode_encode .textEncode,
    decode_encode .imgEncode, decode_encode .imgDecode, decode_encode .audEncode,
    decode_encode .audDecode, decode_encode .clearTables,
    fun op h => (decode_zero_append op).trans (decodeOp_reserved h)⟩

end Sys2Proof.Proofs
end

section
/-! The packed bit stream (30_encoding.md R93). -/

namespace Sys2Proof.Machine

/-- A byte read as its stream bits, the last one least significant. -/
theorem byteOfBits_eq_ofBits (bits : List Bool) :
    byteOfBits bits = BitVec.ofNat 8 (Nat.ofBits fun i : Fin 8 => bits.getD (7 - i) false) := by
  rw [byteOfBits]
  congr 1
  simp [Nat.ofBits, Fin.foldr_succ, List.range_succ]
  omega

/-- Stream bit `t` of a byte stands at bit position `7 - t`. -/
theorem getLsbD_byteOfBits (bits : List Bool) {t : Nat} (h : t < 8) :
    (byteOfBits bits).getLsbD (7 - t) = bits.getD t false := by
  have ht : 7 - t < 8 := by omega
  rw [byteOfBits_eq_ofBits, BitVec.getLsbD_ofNat, decide_eq_true ht, Bool.true_and,
    Nat.testBit_ofBits_lt _ _ ht, show 7 - (7 - t) = t by omega]

/-- Byte `j` is made of the stream bits `8 j` to `8 j + 7`. -/
theorem getElem?_packBytes {m j : Nat} (bits : List Bool) (h : j < m) :
    (packBytes m bits)[j]? = some (byteOfBits ((bits.drop (8 * j)).take 8)) := by
  induction m generalizing j bits with
  | zero => omega
  | succ m ih =>
    cases j with
    | zero => simp [packBytes]
    | succ j =>
      rw [packBytes, List.getElem?_cons_succ, ih _ (by omega), List.drop_drop,
        show 8 + 8 * j = 8 * (j + 1) by omega]

theorem length_packBits (bits : List Bool) :
    (packBits bits).bytes.length = (bits.length + 7) / 8 := length_packBytes _ _

/-- Every bit of the packed bytes is its stream bit, and zero past the end of the stream. -/
theorem getLsbD_packBits {bits : List Bool} {k : Nat} {y : Byte}
    (h : (packBits bits).bytes[k / 8]? = some y) : y.getLsbD (7 - k % 8) = bits.getD k false := by
  have hk : k / 8 < (bits.length + 7) / 8 := length_packBits bits ▸ (List.getElem?_eq_some_iff.mp h).1
  have hmod : k % 8 < 8 := Nat.mod_lt _ (by decide)
  obtain rfl : byteOfBits ((bits.drop (8 * (k / 8))).take 8) = y :=
    Option.some.inj ((getElem?_packBytes bits hk).symm.trans h)
  rw [getLsbD_byteOfBits _ hmod, List.getD_eq_getElem?_getD, List.getElem?_take_of_lt hmod,
    List.getElem?_drop, Nat.div_add_mod, List.getD_eq_getElem?_getD]

end Sys2Proof.Machine

namespace Sys2Proof.Proofs

open Sys2Proof Sys2Proof.Machine

/-- Settles O42: a bit of the stream and a bit of the padding are the two cases of one bit of the
packed bytes. -/
theorem packBitsIsMsbFirst : Obligations.PackBitsIsMsbFirst := by
  intro bits
  have hlen := length_packBits bits
  have hpad : (packBits bits).pad = (8 - bits.length % 8) % 8 := rfl
  refine ⟨rfl, hlen, by omega, by omega, fun k b hb => ?_, fun k y hk hy => ?_⟩
  · have hk : k < bits.length := (List.getElem?_eq_some_iff.mp hb).1
    have hbyte : (packBits bits).bytes[k / 8]? = some _ := List.getElem?_eq_getElem (by omega)
    exact ⟨_, hbyte, by rw [getLsbD_packBits hbyte, List.getD_eq_getElem?_getD, hb, Option.getD_some]⟩
  · rw [getLsbD_packBits hy, List.getD_eq_default _ _ hk]

end Sys2Proof.Proofs
end

section
/-! What every command leaves unchanged (30_encoding.md R83, 10_state.md R32 and R48). -/

namespace Sys2Proof.Machine

/-! ### The registers after a command -/

/-- The operand registers that a successful command leaves (10_state.md R29, R30). -/
def regsAfter (s : State) : Instr → OperandRegs
  | .imgDecode => s.regs.withImage (s.srcRead 0 4) (s.srcRead 4 4)
  | .audDecode => s.regs.withAudio
    { channels := s.srcRead 0 2, swidth := s.srcRead 2 2, rate := s.srcRead 4 4
      frames := s.srcRead 8 4 }
  | _ => s.regs

/-- The result registers that a successful command leaves (10_state.md R32). -/
def resultAfter (s : State) : Instr → ResultRegs
  | .freqCount => { s.result with count := BitVec.ofNat 32 (s.len / 4) }
  | .huffPack => s.result.withPack (pack s.symbols s.tables.ft s.tables.ct) (s.len / 4)
  | .textEncode => s.result.withPack (textPack s.symbols) (s.len / 4)
  | .imgEncode => s.result.withRuns (rleImg s.pixels).length (s.len / 3)
  | .imgDecode =>
    s.result.withRuns (s.imgRuns (s.srcRead 8 4)).length (s.srcRead 0 4 * s.srcRead 4 4)
  | .audEncode => s.result.withRuns (rleAud s.buckets).length (s.len / 2)
  | .audDecode =>
    s.result.withRuns (s.audRuns (s.srcRead 16 4)).length (s.srcRead 8 4 * s.srcRead 0 2)
  | .nop | .freqLoad | .treeBuild | .codeGen | .clearTables => s.result

/-- The STATUS.SAT that a successful command leaves (43_audio_rle.md R185). -/
def satAfter (s : State) : Instr → Bool
  | .audDecode => (s.audRuns (s.srcRead 16 4)).any fun r => outOfRange r.1
  | _ => s.status.sat

theorem resultOf_ok_registers {i : Instr} {s u : State} {out : Nat}
    (h : resultOf i s = .ok (u, out)) :
    u.regs = regsAfter s i ∧ u.result = resultAfter s i ∧ u.status.sat = satAfter s i := by
  cases i with
  | nop => obtain ⟨rfl, -⟩ := nop_ok.mp h; exact ⟨rfl, rfl, rfl⟩
  | freqCount => obtain ⟨-, -, -, -, rfl, -⟩ := freqCount_ok.mp h; exact ⟨rfl, rfl, rfl⟩
  | freqLoad => obtain ⟨-, -, -, -, -, -, -, rfl, -⟩ := freqLoad_ok.mp h; exact ⟨rfl, rfl, rfl⟩
  | treeBuild => obtain ⟨-, rfl, -⟩ := treeBuild_ok.mp h; exact ⟨rfl, rfl, rfl⟩
  | codeGen => obtain ⟨-, -, rfl, -⟩ := codeGen_ok.mp h; exact ⟨rfl, rfl, rfl⟩
  | huffPack =>
    obtain ⟨-, -, -, -, -, -, -, -, rfl, -⟩ := huffPack_ok.mp h
    exact ⟨rfl, rfl, rfl⟩
  | textEncode =>
    obtain ⟨-, -, -, -, -, -, -, -, rfl, -⟩ := textEncode_ok.mp h
    exact ⟨rfl, rfl, rfl⟩
  | imgEncode =>
    obtain ⟨-, -, -, -, -, -, -, rfl, -⟩ := imgEncode_ok.mp h
    exact ⟨rfl, rfl, rfl⟩
  | imgDecode =>
    obtain ⟨-, -, -, a, ha, -, rfl, -⟩ := imgDecode_ok.mp h
    obtain ⟨-, -, -, -, rfl⟩ := parseImg_ok.mp ha
    exact ⟨rfl, rfl, rfl⟩
  | audEncode =>
    obtain ⟨-, -, -, -, -, -, -, -, -, -, rfl, -⟩ := audEncode_ok.mp h
    exact ⟨rfl, rfl, rfl⟩
  | audDecode =>
    obtain ⟨-, -, -, a, ha, -, rfl, -⟩ := audDecode_ok.mp h
    obtain ⟨-, -, -, -, rfl⟩ := parseAud_ok.mp ha
    exact ⟨rfl, rfl, rfl⟩
  | clearTables => obtain ⟨rfl, -⟩ := clearTables_ok.mp h; exact ⟨rfl, rfl, rfl⟩

/-! ### Which command leaves which register and table (30_encoding.md R83) -/

theorem satAfter_of_ne (s : State) {i : Instr} (hi : i ≠ .audDecode) :
    satAfter s i = s.status.sat := by
  revert hi
  cases i <;> simp [satAfter]

theorem regsAfter_of_ne (s : State) {i : Instr} (himg : i ≠ .imgDecode) (haud : i ≠ .audDecode) :
    regsAfter s i = s.regs := by
  revert himg haud
  cases i <;> simp [regsAfter]

theorem resultAfter_pad_bitlen (s : State) {i : Instr} (hi : i ∉ [Instr.huffPack, .textEncode]) :
    (resultAfter s i).pad = s.result.pad ∧ (resultAfter s i).bitlen = s.result.bitlen := by
  revert hi
  cases i <;> simp [resultAfter]

theorem resultAfter_runs (s : State) {i : Instr}
    (hi : i ∉ [Instr.imgEncode, .imgDecode, .audEncode, .audDecode]) :
    (resultAfter s i).runs = s.result.runs := by
  revert hi
  cases i <;> simp [resultAfter]

theorem resultAfter_count (s : State) {i : Instr}
    (hi : i ∈ [Instr.nop, .freqLoad, .treeBuild, .codeGen, .clearTables]) :
    (resultAfter s i).count = s.result.count := by
  revert hi
  cases i <;> simp [resultAfter]

theorem tablesAfter_ft (s : State) {i : Instr}
    (hi : i ∉ [Instr.freqCount, .freqLoad, .textEncode, .clearTables]) :
    (tablesAfter s i).ft = s.tables.ft := by
  revert hi
  cases i <;> simp [tablesAfter]

theorem tablesAfter_tree (s : State) {i : Instr} (hi : i ∉ [Instr.treeBuild, .textEncode]) :
    (tablesAfter s i).tree = s.tables.tree := by
  revert hi
  cases i <;> simp [tablesAfter]

theorem tablesAfter_ct (s : State) {i : Instr} (hi : i ∉ [Instr.codeGen, .textEncode]) :
    (tablesAfter s i).ct = s.tables.ct := by
  revert hi
  cases i <;> simp [tablesAfter]

theorem tablesAfter_unchanged (s : State) {i : Instr}
    (hi : i ∉ [Instr.freqCount, .freqLoad, .treeBuild, .codeGen, .textEncode, .clearTables]) :
    tablesAfter s i = s.tables := by
  revert hi
  cases i <;> simp [tablesAfter]

/-- A command without a destination stores nothing (30_encoding.md R83). -/
theorem resultOf_ok_mem_unchanged {i : Instr} {s u : State} {out : Nat}
    (h : resultOf i s = .ok (u, out)) (hi : i ∉ Spec.writesMemory) : u.mem = s.mem ∧ out = 0 := by
  cases i with
  | nop => obtain ⟨rfl, rfl⟩ := nop_ok.mp h; exact ⟨rfl, rfl⟩
  | freqCount => obtain ⟨-, -, -, -, rfl, rfl⟩ := freqCount_ok.mp h; exact ⟨rfl, rfl⟩
  | freqLoad => obtain ⟨-, -, -, -, -, -, -, rfl, rfl⟩ := freqLoad_ok.mp h; exact ⟨rfl, rfl⟩
  | treeBuild => obtain ⟨-, rfl, rfl⟩ := treeBuild_ok.mp h; exact ⟨rfl, rfl⟩
  | codeGen => obtain ⟨-, -, rfl, rfl⟩ := codeGen_ok.mp h; exact ⟨rfl, rfl⟩
  | clearTables => obtain ⟨rfl, rfl⟩ := clearTables_ok.mp h; exact ⟨rfl, rfl⟩
  | huffPack | textEncode | imgEncode | imgDecode | audEncode | audDecode =>
    simp [Spec.writesMemory] at hi

theorem State.SameFrame.lost {s u : State} (h : s.SameFrame u) : u.status.lost = s.status.lost := by
  rw [h.status]

end Sys2Proof.Machine

namespace Sys2Proof.Proofs

open Sys2Proof Sys2Proof.Machine

/-- Settles O54: what no command writes by `State.SameFrame`, the rest row by row by the registers,
tables and memory that each command leaves. -/
theorem commandFrame : Obligations.CommandFrame := by
  intro i s
  cases hr : resultOf i s with
  | error e => exact ⟨s.failed e, exec_of_error hr, by simp⟩
  | ok p =>
    obtain ⟨u, out⟩ := p
    have hframe := resultOf_ok_sameFrame hr
    obtain ⟨hregs, hresult, hsat⟩ := resultOf_ok_registers hr
    refine ⟨u.succeeded out, exec_of_ok hr, hframe.params, hframe.cmd, hframe.ctrl, hframe.tblIndex,
      hframe.nodeIndex, hframe.agenda, hframe.response, hframe.draws, rfl, rfl, hframe.lost, ?_⟩
    simp only [State.succeeded_status, State.succeeded_regs, State.succeeded_result,
      State.succeeded_tables, hregs, hresult, hsat, resultOf_ok_tables hr]
    refine ⟨satAfter_of_ne s, regsAfter_of_ne s, by rintro rfl; rfl, by rintro rfl; rfl,
      resultAfter_pad_bitlen s, resultAfter_runs s, resultAfter_count s, fun hi => ?_,
      tablesAfter_unchanged s, tablesAfter_ft s, tablesAfter_tree s, tablesAfter_ct s⟩
    obtain ⟨hmem, rfl⟩ := resultOf_ok_mem_unchanged hr hi
    exact ⟨hmem, rfl⟩

end Sys2Proof.Proofs
end

section
/-! The Huffman model commands rule by rule (40_huffman_model.md R110 to R119). -/

namespace Sys2Proof.Machine

open Spec (firstRaise)

/-! ### A list of checks, as the pseudocode runs it (60_exceptions.md R212) -/

/-- The end of a pseudocode whose first raise, if it reaches one, is `c`, and which otherwise leaves
`r`. -/
def endsWith {α : Type} : Option ErrCode → α → Except ErrCode α
  | some e, _ => .error e
  | none, r => .ok r

@[simp] theorem endsWith_firstRaise_nil {α : Type} (r : α) : endsWith (firstRaise []) r = .ok r := rfl

/-- A check in front of a list is a `raiseIf` in front of the pseudocode. -/
theorem endsWith_firstRaise_cons {α : Type} (bad : Bool) (e : ErrCode) (cs : List (Bool × ErrCode))
    (r : α) : endsWith (firstRaise ((bad, e) :: cs)) r =
      raiseIf bad e >>= fun _ => endsWith (firstRaise cs) r := by
  cases bad <;> rfl

/-- A command whose pseudocode is a list of checks and one success follows it in every state. -/
theorem exec_of_endsWith {i : Instr} {s u : State} {out : Nat} {c : Option ErrCode}
    (h : resultOf i s = endsWith c (u, out)) :
    (∀ e, c = some e → exec i s = .next (Spec.raised s e)) ∧
      (c = none → exec i s = .next (Spec.completed u out)) := by
  constructor
  · rintro e rfl
    exact exec_of_error h
  · rintro rfl
    exact exec_of_ok h

/-! ### FREQ_COUNT and FREQ_LOAD (40_huffman_model.md R110, R112) -/

theorem checkSrc_eq (s : State) :
    checkSrc s = raiseIf (decide (Spec.SrcBad s)) .addressError := by
  simp [checkSrc, srcInMemory, Spec.SrcBad, State.src, State.len, ← decide_not]

theorem freqCount_eq (s : State) : freqCount s = endsWith (Spec.freqCountChecks s)
    ((s.setTables (s.tables.withFreq (countFreq s.symbols))).setResult
      { s.result with count := BitVec.ofNat 32 (s.len / 4) }, 0) := by
  simp only [Spec.freqCountChecks, endsWith_firstRaise_cons, endsWith_firstRaise_nil, ← checkSrc_eq,
    spec_symbols_eq, spec_len_eq, ne_eq, decide_not]
  rfl

theorem toNat_ofNat_srcRead_four (s : State) (o : Nat) :
    (BitVec.ofNat 32 (s.srcRead o 4)).toNat = s.srcRead o 4 :=
  Nat.mod_eq_of_lt (s.mem.readBE_lt _ 4)

theorem toNat_ofNat_srcRead_eight (s : State) (o : Nat) :
    (BitVec.ofNat 64 (s.srcRead o 8)).toNat = s.srcRead o 8 :=
  Nat.mod_eq_of_lt (s.mem.readBE_lt _ 8)

/-- The symbols of a header are ascending when no two neighbours fall or stay. -/
theorem ascending_headerEntries (s : State) (n : Nat) : ascending (s.headerEntries n) = true ↔
    ∀ i, i < n - 1 → s.srcRead (4 + 12 * i) 4 < s.srcRead (4 + 12 * (i + 1)) 4 := by
  have : Trans SymLt SymLt SymLt := ⟨Nat.lt_trans⟩
  rw [ascending_iff_pairwise, ← List.isChain_iff_pairwise, State.headerEntries, List.isChain_map,
    List.isChain_range]
  simp only [SymLt, toNat_ofNat_srcRead_four, Nat.succ_eq_add_one]

theorem freqSum_headerEntries (s : State) (n : Nat) :
    freqSum (s.headerEntries n) = ((List.range n).map fun i => s.srcRead (8 + 12 * i) 8).sum := by
  simp only [freqSum, State.headerEntries, List.map_map, Function.comp_def,
    toNat_ofNat_srcRead_eight]

theorem freqLoad_eq (s : State) : freqLoad s = endsWith (Spec.freqLoadChecks s)
    (s.setTables (s.tables.withFreq (s.headerEntries (s.srcRead 0 4))), 0) := by
  have hasc : (!ascending (s.headerEntries (s.srcRead 0 4))) =
      decide (∃ i, i < s.srcRead 0 4 - 1 ∧
        s.srcRead (4 + 12 * (i + 1)) 4 ≤ s.srcRead (4 + 12 * i) 4) := by
    rw [Bool.eq_iff_iff, Bool.not_eq_true', ← Bool.not_eq_true, ascending_headerEntries]
    simp
  simp only [Spec.freqLoadChecks, endsWith_firstRaise_cons, endsWith_firstRaise_nil, ← checkSrc_eq,
    spec_field_eq, spec_len_eq, ← hasc, ← freqSum_headerEntries]
  rfl

/-! ### TREE_BUILD and CODE_GEN (40_huffman_model.md R114, R116) -/

theorem treeBuild_error {s : State} {e : ErrCode} :
    treeBuild s = .error e ↔ s.tables.ft = [] ∧ .emptyInput = e := by
  simp [treeBuild, raiseIf_bind_error, except_pure]

theorem codeGen_error {s : State} {e : ErrCode} :
    codeGen s = .error e ↔ (s.tables.treeValid = false ∧ .sequence = e) ∨
      (s.tables.treeValid = true ∧ s.params.maxCodeLen < maxLen (buildCodes s.tables.tree) ∧
        .capacity = e) := by
  simp [codeGen, raiseIf_bind_error, except_pure]

/-- A code table's longest code is within a bound exactly when every code is. -/
theorem maxLen_le_iff {cs : List Code} {k : Nat} : maxLen cs ≤ k ↔ ∀ c ∈ cs, c.length ≤ k := by
  induction cs with
  | nil => simp [maxLen]
  | cons c cs ih =>
    have hcons : maxLen (c :: cs) = max c.length (maxLen cs) := rfl
    rw [hcons, max_le_iff, ih, List.forall_mem_cons]

end Sys2Proof.Machine

namespace Sys2Proof.Proofs

open Sys2Proof Sys2Proof.Machine

/-- Settles O23: the pseudocode is its list of checks. -/
theorem freqCountFollowsItsRule : Obligations.FreqCountFollowsItsRule := by
  intro s
  rw [spec_symbols_eq, spec_len_eq]
  exact exec_of_endsWith (freqCount_eq s)

/-- Settles O24: the pseudocode is its list of checks. -/
theorem freqLoadFollowsItsRule : Obligations.FreqLoadFollowsItsRule := by
  intro s
  rw [spec_headerTable_eq, spec_field_eq]
  exact exec_of_endsWith (freqLoad_eq s)

/-- Settles O25: the one check of TREE_BUILD raises on an empty FT and on no other. -/
theorem treeBuildFollowsItsRule : Obligations.TreeBuildFollowsItsRule := fun _ =>
  ⟨fun h => exec_of_error (treeBuild_error.mpr ⟨h, rfl⟩),
    fun h => exec_of_ok (treeBuild_ok.mpr ⟨h, rfl, rfl⟩)⟩

/-- Settles O26: the longest code is within P_MAX_CODE_LEN exactly when every code is. -/
theorem codeGenFollowsItsRule : Obligations.CodeGenFollowsItsRule := by
  refine fun s => ⟨fun hv => ?_, fun hv ⟨c, hc, hlong⟩ => ?_, fun hv hall => ?_⟩
  · exact exec_of_error (codeGen_error.mpr (.inl ⟨hv, rfl⟩))
  · exact exec_of_error (codeGen_error.mpr (.inr ⟨hv, hlong.trans_le (le_maxLen hc), rfl⟩))
  · exact exec_of_ok (codeGen_ok.mpr ⟨hv, maxLen_le_iff.mpr hall, rfl, rfl⟩)

/-- Settles O27: CLEAR_TABLES has no check. -/
theorem clearTablesFollowsItsRule : Obligations.ClearTablesFollowsItsRule := fun _ =>
  exec_of_ok (clearTables_ok.mpr ⟨rfl, rfl⟩)

end Sys2Proof.Proofs
end

section
/-! What `countFreq` counts (40_huffman_model.md R111). -/

namespace Sys2Proof.Machine

/-- What a table says of symbol `y`: the frequencies of its entries for `y`, summed. -/
def frequencyOf (ft : List FreqEntry) (y : Word) : Nat := freqSum (ft.filter fun e => e.sym == y)

theorem frequencyOf_cons (e : FreqEntry) (es : List FreqEntry) (y : Word) :
    frequencyOf (e :: es) y = (if e.sym = y then e.freq.toNat else 0) + frequencyOf es y := by
  by_cases h : e.sym = y <;> simp [frequencyOf, h]

/-- One more occurrence does not wrap while the sum stays below 2^64. -/
theorem toNat_freq_add_one {f : DWord} (h : f.toNat + 1 < 2 ^ 64) : (f + 1).toNat = f.toNat + 1 :=
  BitVec.toNat_add_of_lt h

/-- `bump x` counts one more `x` and nothing else. -/
theorem frequencyOf_bump {x y : Word} {ft : List FreqEntry} (h : freqSum ft + 1 < 2 ^ 64) :
    frequencyOf (bump x ft) y = frequencyOf ft y + if x = y then 1 else 0 := by
  induction ft with
  | nil => rw [bump, frequencyOf_cons, Nat.add_comm]; rfl
  | cons d ds ih =>
    rw [freqSum_cons] at h
    unfold bump
    split
    · rw [frequencyOf_cons, Nat.add_comm]; rfl
    · split
      next heq =>
        rw [frequencyOf_cons, frequencyOf_cons, toNat_freq_add_one (by omega), heq]
        split <;> omega
      · rw [frequencyOf_cons, frequencyOf_cons, ih (by omega), Nat.add_assoc]

theorem freqSum_bump {x : Word} {ft : List FreqEntry} (h : freqSum ft + 1 < 2 ^ 64) :
    freqSum (bump x ft) = freqSum ft + 1 := by
  induction ft with
  | nil => rfl
  | cons d ds ih =>
    rw [freqSum_cons] at h
    unfold bump
    split
    · rw [freqSum_cons, Nat.add_comm]; rfl
    · split
      · rw [freqSum_cons, freqSum_cons, toNat_freq_add_one (by omega)]
        omega
      · rw [freqSum_cons, freqSum_cons, ih (by omega), Nat.add_assoc]

theorem countFreq_concat (xs : List Word) (x : Word) :
    countFreq (xs ++ [x]) = bump x (countFreq xs) := by
  simp [countFreq]

theorem frequencyOf_countFreq {syms : List Word} (h : syms.length < 2 ^ 64) (y : Word) :
    frequencyOf (countFreq syms) y = syms.count y := by
  induction syms using List.reverseRecOn with
  | nil => rfl
  | append_singleton xs x ih =>
    rw [List.length_append, List.length_singleton] at h
    have hsum := freqSum_countFreq_le xs
    rw [countFreq_concat, frequencyOf_bump (by omega), ih (by omega), List.count_append,
      List.count_singleton]
    simp

theorem freqSum_countFreq {syms : List Word} (h : syms.length < 2 ^ 64) :
    freqSum (countFreq syms) = syms.length := by
  induction syms using List.reverseRecOn with
  | nil => rfl
  | append_singleton xs x ih =>
    rw [List.length_append, List.length_singleton] at h ⊢
    have hsum := freqSum_countFreq_le xs
    rw [countFreq_concat, freqSum_bump (by omega), ih (by omega)]

/-- Only symbols of the input have an entry. -/
theorem sym_mem_of_mem_countFreq {syms : List Word} {e : FreqEntry} (h : e ∈ countFreq syms) :
    e.sym ∈ syms := by
  induction syms using List.reverseRecOn generalizing e with
  | nil => cases h
  | append_singleton xs x ih =>
    rw [countFreq_concat] at h
    rw [List.mem_append, List.mem_singleton]
    obtain hx | ⟨d, hd, hde⟩ := mem_bump_sym h
    exacts [.inr hx, .inl (hde ▸ ih hd)]

/-- A symbol that a table counts has an entry. -/
theorem exists_entry_of_frequencyOf_ne_zero {ft : List FreqEntry} {y : Word}
    (h : frequencyOf ft y ≠ 0) : ∃ e ∈ ft, e.sym = y := by
  by_contra hnone
  refine h ?_
  rw [frequencyOf, List.filter_eq_nil_iff.mpr fun e he => ?_, freqSum_nil]
  simpa using fun heq => hnone ⟨e, he, heq⟩

/-- With distinct symbols an entry is all that the table says of its symbol. -/
theorem frequencyOf_of_mem {ft : List FreqEntry} (h : ft.Pairwise SymLt) {e : FreqEntry}
    (he : e ∈ ft) : frequencyOf ft e.sym = e.freq.toNat := by
  induction ft with
  | nil => cases he
  | cons d ds ih =>
    obtain ⟨hd, hds⟩ := List.pairwise_cons.mp h
    rw [frequencyOf_cons]
    rcases List.mem_cons.mp he with rfl | he
    · have hrest : frequencyOf ds e.sym = 0 := by
        by_contra hne
        obtain ⟨d', hd', heq⟩ := exists_entry_of_frequencyOf_ne_zero hne
        exact absurd (hd d' hd') (by simp [SymLt, heq])
      simp [hrest]
    · have hne : d.sym ≠ e.sym := fun heq => absurd (hd e he) (by simp [SymLt, heq])
      simp [hne, ih hds he]

end Sys2Proof.Machine

namespace Sys2Proof.Proofs

open Sys2Proof Sys2Proof.Machine

/-- Settles O34: every count adds one to what the table says of its symbol, and the symbols stay
ascending, so each entry says all of its symbol. -/
theorem countFreqCountsEverySymbolOnce : Obligations.CountFreqCountsEverySymbolOnce := by
  intro syms hlen
  have hasc := pairwise_countFreq syms
  refine ⟨fun i j d e hij hd he => ?_, fun e he => ?_, fun x hx => ?_, freqSum_countFreq hlen⟩
  · obtain ⟨hi, rfl⟩ := List.getElem?_eq_some_iff.mp hd
    obtain ⟨hj, rfl⟩ := List.getElem?_eq_some_iff.mp he
    exact List.pairwise_iff_getElem.mp hasc i j hi hj hij
  · have hmem := sym_mem_of_mem_countFreq he
    have hcount : e.freq.toNat = syms.count e.sym := by
      rw [← frequencyOf_of_mem hasc he, frequencyOf_countFreq hlen]
    have hpos := List.count_pos_iff.mpr hmem
    have hle := List.count_le_length (a := e.sym) (l := syms)
    exact ⟨hmem, hcount, by omega, by omega⟩
  · refine exists_entry_of_frequencyOf_ne_zero ?_
    rw [frequencyOf_countFreq hlen]
    exact (List.count_pos_iff.mpr hx).ne'

end Sys2Proof.Proofs
end

section
/-! The order in which `buildTree` takes nodes out of the queue (40_huffman_model.md R115). -/

namespace Sys2Proof.Machine

/-! ### The queue's order -/

/-- The model's queue order is the spec's. -/
theorem queueBefore_iff (t : Tree) (x y : Nat) :
    queueBefore t.nodes x y = true ↔ Spec.Before t x y := by
  simp [queueBefore, Spec.Before, freqAt_eq, BitVec.toNat_inj]

theorem queueBefore_trans {nodes : List Node} {x y z : Nat} (hxy : queueBefore nodes x y = true)
    (hyz : queueBefore nodes y z = true) : queueBefore nodes x z = true := by
  rw [queueBefore_iff ⟨nodes, 0⟩, Spec.Before] at *
  omega

/-- Two indices are ordered one way or the other. -/
theorem eq_or_queueBefore_of_not {nodes : List Node} {x y : Nat}
    (h : ¬ queueBefore nodes x y = true) : x = y ∨ queueBefore nodes y x = true := by
  rw [queueBefore_iff ⟨nodes, 0⟩, Spec.Before] at *
  omega

/-- What is popped comes before everything else in the queue. -/
theorem popMin_first {nodes : List Node} {q rest : List Nat} {m : Nat}
    (h : popMin nodes q = some (m, rest)) : ∀ x ∈ q, x = m ∨ queueBefore nodes m x = true := by
  induction q generalizing m rest with
  | nil => cases h
  | cons y ys ih =>
    simp only [popMin] at h
    split at h
    next hp =>
      obtain ⟨rfl, -⟩ : y = m ∧ [] = rest := by simpa using h
      simp [popMin_eq_none.mp hp]
    next m' rest' hp =>
      split at h
      next hbefore =>
        obtain ⟨rfl, -⟩ : y = m ∧ ys = rest := by simpa using h
        refine List.forall_mem_cons.mpr ⟨.inl rfl, fun x hx => .inr ?_⟩
        rcases ih hp x hx with rfl | hx
        exacts [hbefore, queueBefore_trans hbefore hx]
      next hbefore =>
        obtain ⟨rfl, -⟩ : m' = m ∧ y :: rest' = rest := by simpa using h
        exact List.forall_mem_cons.mpr ⟨eq_or_queueBefore_of_not hbefore, ih hp⟩

/-! ### The queue, read off the arena -/

/-- `x` is queued when node `k` is made: `Spec.Queued`, said of the list of nodes. -/
def QueuedAt (nodes : List Node) (k x : Nat) : Prop := x < k ∧ ∀ j, j < k → ¬ HasChild nodes j x

theorem queued_iff {t : Tree} {x k : Nat} : Spec.Queued t x k ↔ QueuedAt t.nodes k x := Iff.rfl

/-- The loop's queue holds the nodes without a parent. -/
theorem Forest.mem_queue_iff {ft : List FreqEntry} {nodes : List Node} {q : List Nat}
    (h : Forest ft nodes q) {x : Nat} : x ∈ q ↔ QueuedAt nodes nodes.length x := by
  refine ⟨fun hx => ⟨h.queue_lt x hx, fun j _ => h.queue_root x hx j⟩, fun ⟨hlt, hroot⟩ => ?_⟩
  by_contra hx
  obtain ⟨k, hk, -⟩ := h.parent x hlt hx
  exact hroot k hk.lt_length hk

theorem queuedAt_append {nodes more : List Node} {k x : Nat} (hk : k ≤ nodes.length) :
    QueuedAt (nodes ++ more) k x ↔ QueuedAt nodes k x := by
  refine and_congr_right fun _ => forall₂_congr fun j hj => ?_
  rw [HasChild, HasChild, List.getElem?_append_left (by omega)]

theorem queueBefore_append {nodes more : List Node} {x y : Nat} (hx : x < nodes.length)
    (hy : y < nodes.length) : queueBefore (nodes ++ more) x y = queueBefore nodes x y := by
  simp [queueBefore, nodeFreq_append_left, hx, hy]

/-! ### The choice of every merge -/

/-- Of the nodes queued when node `k` is made, `a` is the first and `b` the second
(40_huffman_model.md R115). -/
structure FirstTwo (nodes : List Node) (k a b : Nat) : Prop where
  left_queued : QueuedAt nodes k a
  right_queued : QueuedAt nodes k b
  left_first : ∀ x, QueuedAt nodes k x → x = a ∨ queueBefore nodes a x = true
  right_second : ∀ x, QueuedAt nodes k x → x = a ∨ x = b ∨ queueBefore nodes b x = true

/-- Later nodes change nothing of an earlier choice. -/
theorem FirstTwo.append {nodes : List Node} {k a b : Nat} (h : FirstTwo nodes k a b)
    (hk : k ≤ nodes.length) (more : List Node) : FirstTwo (nodes ++ more) k a b := by
  have hlt : ∀ {x}, QueuedAt nodes k x → x < nodes.length := fun hx => hx.1.trans_le hk
  constructor
  · exact (queuedAt_append hk).mpr h.left_queued
  · exact (queuedAt_append hk).mpr h.right_queued
  · intro x hx
    rw [queuedAt_append hk] at hx
    rw [queueBefore_append (hlt h.left_queued) (hlt hx)]
    exact h.left_first x hx
  · intro x hx
    rw [queuedAt_append hk] at hx
    rw [queueBefore_append (hlt h.right_queued) (hlt hx)]
    exact h.right_second x hx

/-- Two pops give the first two of the queue. -/
theorem Forest.firstTwo_of_popMin {ft : List FreqEntry} {nodes : List Node} {q q₁ rest : List Nat}
    {a b : Nat} (h : Forest ft nodes q) (ha : popMin nodes q = some (a, q₁))
    (hb : popMin nodes q₁ = some (b, rest)) : FirstTwo nodes nodes.length a b := by
  have hq : ∀ x, QueuedAt nodes nodes.length x ↔ x = a ∨ x ∈ q₁ := fun x => by
    rw [← h.mem_queue_iff, (popMin_perm ha).mem_iff, List.mem_cons]
  constructor
  · exact (hq a).mpr (.inl rfl)
  · exact (hq b).mpr (.inr ((popMin_perm hb).mem_iff.mpr (by simp)))
  · exact fun x hx => popMin_first ha x (h.mem_queue_iff.mpr hx)
  · exact fun x hx => ((hq x).mp hx).imp_right (popMin_first hb x)

/-- Every internal node made so far took the first two nodes queued. -/
def Greedy (nodes : List Node) : Prop :=
  ∀ (k : Nat) (f : DWord) (a b : Nat), nodes[k]? = some (.internal f a b) → FirstTwo nodes k a b

theorem greedy_leaves (ft : List FreqEntry) : Greedy (leavesOf ft) := fun k f a b hk => by
  rw [getElem?_leavesOf] at hk
  cases hf : ft[k]? <;> simp [hf] at hk

theorem Greedy.mergeStep {ft : List FreqEntry} {nodes nodes' : List Node} {q q' : List Nat}
    (hg : Greedy nodes) (h : Forest ft nodes q) (hm : mergeStep nodes q = some (nodes', q')) :
    Greedy nodes' := by
  obtain ⟨a, q₁, b, rest, ha, hb, rfl, rfl⟩ := mergeStep_eq_some.mp hm
  intro k f l r hk
  rcases Nat.lt_or_ge k nodes.length with hlt | hge
  · rw [List.getElem?_append_left hlt] at hk
    exact (hg k f l r hk).append hlt.le _
  · rw [List.getElem?_append_right hge] at hk
    obtain ⟨hsub, -, rfl, rfl⟩ :
        k - nodes.length = 0 ∧ nodeFreq nodes a + nodeFreq nodes b = f ∧ a = l ∧ b = r := by
      simpa [List.getElem?_singleton] using hk
    obtain rfl : k = nodes.length := by omega
    exact (h.firstTwo_of_popMin ha hb).append le_rfl _

theorem greedy_buildTree {ft : List FreqEntry} (hft : ft ≠ []) : Greedy (buildTree ft).nodes := by
  have hn := List.length_pos_iff.mpr hft
  obtain ⟨x, -, hx⟩ := mergeLoop_keeps (P := fun nodes q => Forest ft nodes q ∧ Greedy nodes)
    (fun _ _ _ _ h hm => ⟨h.1.mergeStep hm, h.2.mergeStep h.1 hm⟩) (k := ft.length - 1)
    ⟨forest_leaves ft, greedy_leaves ft⟩ (by simp; omega)
  exact hx

end Sys2Proof.Machine

namespace Sys2Proof.Proofs

open Sys2Proof Sys2Proof.Machine

/-- Settles O35: every merge keeps that each internal node took the first two of the queue, which is
the set of nodes without a parent. -/
theorem buildTreeIsGreedy : Obligations.BuildTreeIsGreedy := by
  intro ft hft hsum
  have hf := forest_buildTree hft
  have hlen := length_buildTree_nodes hft
  obtain ⟨q, hw⟩ := weighed_buildTree hft hsum
  refine ⟨rfl, hlen, fun i e hi => ?_, fun k hk hlt => ?_⟩
  · obtain ⟨hlt, rfl⟩ := List.getElem?_eq_some_iff.mp hi
    exact hf.getElem?_leaf hlt
  · obtain ⟨f, a, b, hnode, -, -, hab⟩ := hf.internal k hk (by omega)
    have hchoice := greedy_buildTree hft k f a b hnode
    refine ⟨f, a, b, hnode, by simpa [freqAt_eq] using hw.sum k f a b hnode, hab,
      queued_iff.mpr hchoice.left_queued, queued_iff.mpr hchoice.right_queued, fun x hx => ?_,
      fun x hx => ?_⟩
    · exact (hchoice.left_first x (queued_iff.mp hx)).imp_right (queueBefore_iff _ _ _).mp
    · exact (hchoice.right_second x (queued_iff.mp hx)).imp_right (Or.imp_right (queueBefore_iff _ _ _).mp)

end Sys2Proof.Proofs
end

section
/-! Code lengths: how long a root path can be, that a node has one root path, and that the paths to the
leaves fill the tree (40_huffman_model.md R117, R118). -/

namespace Sys2Proof.Machine

open Spec (follow)

/-- Every bit of a path leaves an internal node, each made before the one above it. -/
theorem length_le_of_follow {t : Tree} {ft : List FreqEntry} {q : List Nat}
    (hf : Forest ft t.nodes q) {x y : Nat} {c : Code} (hc : follow t x c = some y) :
    c.length ≤ x + 1 - ft.length := by
  induction c generalizing x with
  | nil => simp
  | cons b bs ih =>
    simp only [follow] at hc
    split at hc
    next f l r hnode =>
      have hle := hf.le_of_internal hnode
      obtain ⟨hl, hr, -⟩ := hf.children hnode
      have hchild : (if b then r else l) < x := by split <;> assumption
      have := ih hc
      rw [List.length_cons]
      omega
    · cases hc

/-! ### A node has one root path -/

/-- `y` is the child of node `k` on side `b`: left for 0, right for 1. -/
def ChildOn (nodes : List Node) (k : Nat) (b : Bool) (y : Nat) : Prop :=
  ∃ f l r, nodes[k]? = some (.internal f l r) ∧ (if b then r else l) = y

theorem ChildOn.hasChild {nodes : List Node} {k y : Nat} {b : Bool} (h : ChildOn nodes k b y) :
    HasChild nodes k y := by
  obtain ⟨f, l, r, hk, rfl⟩ := h
  exact ⟨f, l, r, hk, by cases b <;> simp⟩

/-- A node has at most one parent, on one side only (10_state.md R43). -/
theorem Forest.childOn_unique {ft : List FreqEntry} {nodes : List Node} {q : List Nat}
    (hf : Forest ft nodes q) {k k' y : Nat} {b b' : Bool} (h : ChildOn nodes k b y)
    (h' : ChildOn nodes k' b' y) : k = k' ∧ b = b' := by
  have hlt := hf.child_lt h.hasChild
  have hkl := h.hasChild.lt_length
  obtain ⟨p, -, hp⟩ :=
    hf.parent y (by omega) fun hy => hf.queue_root y hy k h.hasChild
  obtain rfl : k = k' := (hp k h.hasChild).trans (hp k' h'.hasChild).symm
  obtain ⟨f, l, r, hk, hy⟩ := h
  obtain ⟨f', l', r', hk', hy'⟩ := h'
  obtain ⟨-, rfl, rfl⟩ : f = f' ∧ l = l' ∧ r = r' := by simpa [hk] using hk'
  have hlr := (hf.children hk).2.2
  refine ⟨rfl, ?_⟩
  match b, b' with
  | false, false | true, true => rfl
  | false, true => exact absurd (hy.trans hy'.symm) hlr
  | true, false => exact absurd (hy'.trans hy.symm) hlr

/-- The last bit of a path leads from a node to its child. -/
theorem follow_concat {t : Tree} {x y : Nat} {c : Code} {b : Bool} :
    follow t x (c ++ [b]) = some y ↔ ∃ k, follow t x c = some k ∧ ChildOn t.nodes k b y := by
  rw [follow_append, Option.bind_eq_some_iff]
  refine exists_congr fun k => and_congr_right fun _ => ⟨fun h => ?_, ?_⟩
  · simp only [follow] at h
    split at h
    next f l r hnode => exact ⟨f, l, r, hnode, by simpa using h⟩
    · cases h
  · rintro ⟨f, l, r, hnode, hy⟩
    simp [follow_internal hnode, hy]

/-- No path but the empty one ends at the root. -/
theorem Forest.follow_concat_ne_root {ft : List FreqEntry} {t : Tree} {q : List Nat}
    (hf : Forest ft t.nodes q) (hroot : t.root ∈ q) {x : Nat} {c : Code} {b : Bool} :
    follow t x (c ++ [b]) ≠ some t.root := by
  intro h
  obtain ⟨k, -, hk⟩ := follow_concat.mp h
  exact hf.queue_root _ hroot k hk.hasChild

theorem follow_root_inj {t : Tree} {ft : List FreqEntry} (hf : Forest ft t.nodes [t.root]) {y : Nat}
    {c d : Code} (hc : follow t t.root c = some y) (hd : follow t t.root d = some y) : c = d := by
  have hroot : t.root ∈ [t.root] := List.mem_singleton_self _
  induction c using List.reverseRecOn generalizing d y with
  | nil =>
    obtain rfl : t.root = y := by simpa using hc
    cases d using List.reverseRecOn with
    | nil => rfl
    | append_singleton d b' => exact absurd hd (hf.follow_concat_ne_root hroot)
  | append_singleton c b ih =>
    cases d using List.reverseRecOn with
    | nil =>
      obtain rfl : t.root = y := by simpa using hd
      exact absurd hc (hf.follow_concat_ne_root hroot)
    | append_singleton d b' =>
      obtain ⟨k, hck, hk⟩ := follow_concat.mp hc
      obtain ⟨k', hdk, hk'⟩ := follow_concat.mp hd
      obtain ⟨rfl, rfl⟩ := hf.childOn_unique hk hk'
      rw [ih hck hdk]

/-! ### The walk lists every leaf once -/

/-- The walk lists leaves only. -/
theorem lt_length_of_mem_walk {t : Tree} {ft : List FreqEntry} {q : List Nat}
    (hf : Forest ft t.nodes q) {fuel x i : Nat} {p c : Code} (h : (i, c) ∈ walk t.nodes fuel x p) :
    i < ft.length := by
  induction fuel generalizing x p with
  | zero => cases h
  | succ fuel ih =>
    simp only [walk] at h
    split at h
    · cases h
    next a f hx =>
      obtain ⟨rfl, -⟩ : i = x ∧ c = p := by simpa using h
      by_contra hge
      obtain ⟨f', l, r, hk, -⟩ :=
        hf.internal i (by omega) (List.getElem?_eq_some_iff.mp hx).1
      simp [hx] at hk
    · exact (List.mem_append.mp h).elim ih ih

/-- The two sides of a node differ in the bit that leads there, so no leaf is listed twice. -/
theorem nodup_walk (t : Tree) (fuel x : Nat) (p : Code) : (walk t.nodes fuel x p).Nodup := by
  induction fuel generalizing x p with
  | zero => exact .nil
  | succ fuel ih =>
    simp only [walk]
    split
    · exact .nil
    · exact List.nodup_singleton _
    · refine List.nodup_append.mpr ⟨ih _ _, ih _ _, ?_⟩
      rintro ⟨i, c⟩ hl ⟨j, d⟩ hr heq
      obtain ⟨rfl, rfl⟩ : i = j ∧ c = d := by simpa using heq
      obtain ⟨u, hu, -⟩ := follow_of_mem_walk hl
      obtain ⟨v, hv, -⟩ := follow_of_mem_walk hr
      simp [hu] at hv

/-- The walk from the root lists each leaf once, with its code. -/
theorem walk_perm {t : Tree} {ft : List FreqEntry} (hf : Forest ft t.nodes [t.root]) :
    (walk t.nodes t.nodes.length t.root []).Perm ((List.range ft.length).map fun i =>
      (i, codeAt (walk t.nodes t.nodes.length t.root []) i)) := by
  have hinj : Function.Injective fun i =>
      (i, codeAt (walk t.nodes t.nodes.length t.root []) i) := fun i j h => congrArg Prod.fst h
  refine (List.perm_ext_iff_of_nodup (nodup_walk ..) (List.nodup_range.map hinj)).mpr ?_
  rintro ⟨i, c⟩
  simp only [List.mem_map, List.mem_range, Prod.mk.injEq]
  constructor
  · intro h
    have hi := lt_length_of_mem_walk hf h
    obtain ⟨d, rfl, hd⟩ := follow_of_mem_walk h
    exact ⟨i, hi, rfl, follow_root_inj hf (follow_codeAt hf hi) hd⟩
  · rintro ⟨i, hi, rfl, rfl⟩
    exact mem_walk_of_follow hf hi [] (hf.queue_lt _ (by simp)) (follow_codeAt hf hi)

/-! ### The Kraft sum -/

/-- The share of the tree that a code takes. -/
def share (c : Code) : ℚ := (1 / 2) ^ c.length

theorem share_children (p : Code) : share (p ++ [false]) + share (p ++ [true]) = share p := by
  simp only [share, List.length_append, List.length_singleton, pow_succ]
  ring

/-- The leaves below a node share what the node has. -/
theorem sum_share_walk {t : Tree} {ft : List FreqEntry} {q : List Nat} (hf : Forest ft t.nodes q)
    {fuel x : Nat} (p : Code) (hx : x < fuel) (hlt : x < t.nodes.length) :
    ((walk t.nodes fuel x p).map fun w => share w.2).sum = share p := by
  induction fuel generalizing x p with
  | zero => omega
  | succ fuel ih =>
    simp only [walk]
    split
    next hnone => simp at hnone; omega
    · simp
    next f l r hnode =>
      obtain ⟨hl, hr, -⟩ := hf.children hnode
      rw [List.map_append, List.sum_append, ih _ (by omega) (by omega), ih _ (by omega) (by omega),
        share_children]

theorem sum_share_buildCodes {ft : List FreqEntry} (h : 2 ≤ ft.length) :
    ((buildCodes (buildTree ft)).map share).sum = 1 := by
  have hf := forest_buildTree (ft := ft) (by rintro rfl; simp at h)
  have hroot := hf.queue_lt _ (List.mem_singleton_self _)
  calc ((buildCodes (buildTree ft)).map share).sum
    _ = ((walk (buildTree ft).nodes (buildTree ft).nodes.length (buildTree ft).root []).map
          fun w => share w.2).sum := by
        rw [buildCodes, hf.leafCount, if_neg (by omega), ((walk_perm hf).map _).sum_eq]
        simp [Function.comp_def]
    _ = share [] := sum_share_walk hf [] hroot hroot
    _ = 1 := by simp [share]

end Sys2Proof.Machine

namespace Sys2Proof.Proofs

open Sys2Proof Sys2Proof.Machine

/-- Settles O38: the walk from the root lists every leaf with its path. -/
theorem codesAreRootPaths : Obligations.CodesAreRootPaths := fun _ =>
  ⟨buildCodes_one, fun h => ⟨(buildCodes_of_two_le h).1, fun i c hc =>
    ((buildCodes_of_two_le h).2 i c hc).2⟩⟩

/-- Settles O40: a path passes each of the n - 1 internal nodes at most once, and every internal node
splits its share of the tree between its two children. -/
theorem codeLengthsFillTheTree : Obligations.CodeLengthsFillTheTree := by
  intro ft h
  have hft : ft ≠ [] := by rintro rfl; simp at h
  refine ⟨fun c hc => ⟨one_le_length_code hft hc, ?_⟩, sum_share_buildCodes h⟩
  obtain ⟨i, hi⟩ := List.mem_iff_getElem?.mp hc
  obtain ⟨-, hfollow⟩ := (buildCodes_of_two_le h).2 i c hi
  have hle := length_le_of_follow (forest_buildTree hft) hfollow
  have hroot : (buildTree ft).root = 2 * ft.length - 2 := rfl
  omega

end Sys2Proof.Proofs
end

section
/-! What a text artifact in memory says to FREQ_LOAD (40_huffman_model.md R113, 30_encoding.md R90). -/

namespace Sys2Proof.Machine

/-! ### Bytes in memory -/

/-- `bs` stands in memory at `a`, `a + 1`, … -/
def Memory.Holds (m : Memory) (a : Nat) (bs : List Byte) : Prop := m.bytes a bs.length = bs

theorem Memory.bytes_add (m : Memory) (a k l : Nat) :
    m.bytes a (k + l) = m.bytes a k ++ m.bytes (a + k) l := by
  simp [Memory.bytes, List.range_add, Nat.add_assoc]

theorem Memory.holds_append {m : Memory} {a : Nat} {bs cs : List Byte} :
    m.Holds a (bs ++ cs) ↔ m.Holds a bs ∧ m.Holds (a + bs.length) cs := by
  rw [Holds, List.length_append, m.bytes_add]
  exact ⟨fun h => List.append_inj h (m.length_bytes a _),
    fun ⟨hbs, hcs⟩ => congrArg₂ (· ++ ·) hbs hcs⟩

/-- Records of one width stand one after the other. -/
theorem Memory.Holds.record {α : Type} {m : Memory} {f : α → List Byte} {k : Nat}
    (hf : ∀ x, (f x).length = k) {xs : List α} {a i : Nat} {x : α} (h : m.Holds a (xs.flatMap f))
    (hx : xs[i]? = some x) : m.Holds (a + k * i) (f x) := by
  induction xs generalizing a i with
  | nil => cases hx
  | cons y ys ih =>
    rw [List.flatMap_cons, Memory.holds_append, hf] at h
    cases i with
    | zero =>
      obtain rfl : y = x := by simpa using hx
      exact h.1
    | succ i =>
      rw [Nat.mul_succ, Nat.add_comm (k * i), ← Nat.add_assoc]
      exact ih h.2 (by simpa using hx)

/-- A number that fits its width reads back. -/
theorem Memory.Holds.readBE {m : Memory} {a n v : Nat} (h : m.Holds a (toBE n v)) (hv : v < 256 ^ n) :
    m.readBE a n = v := by
  rw [Holds, length_toBE] at h
  rw [Memory.readBE, h, beNat_toBE_of_lt hv]

/-! ### The header of a text artifact -/

theorem headerEntries_of_holds {u : State} {ft : List FreqEntry}
    (h : u.mem.Holds (u.src + 4) (ft.flatMap FreqEntry.bytes)) : u.headerEntries ft.length = ft := by
  apply List.ext_getElem
  · simp
  intro i _ hi
  obtain ⟨hsym, hfreq⟩ := Memory.holds_append.mp
    (h.record length_entryBytes (List.getElem?_eq_getElem hi))
  rw [length_toBE] at hfreq
  have hsym : u.srcRead (4 + 12 * i) 4 = ft[i].sym.toNat := by
    rw [State.srcRead, ← Nat.add_assoc]
    exact hsym.readBE ft[i].sym.isLt
  have hfreq : u.srcRead (8 + 12 * i) 8 = ft[i].freq.toNat := by
    rw [State.srcRead, show u.src + (8 + 12 * i) = u.src + 4 + 12 * i + 4 by omega]
    exact hfreq.readBE ft[i].freq.isLt
  simp [State.headerEntries, hsym, hfreq]

/-- FREQ_LOAD accepts the artifact of a sound table and loads it. -/
theorem freqLoad_of_holds {u : State} {ft : List FreqEntry} {p : Packed}
    (h : u.mem.Holds u.src (textArtifact ft p)) (hlen : u.len = (textArtifact ft p).length)
    (hsrc : ¬ Spec.SrcBad u) (hft : ft ≠ []) (hasc : ascending ft = true)
    (hsum : freqSum ft ≤ 2 ^ 64 - 1) (hcap : ft.length ≤ u.params.maxSymbols) :
    freqLoad u = .ok (u.setTables (u.tables.withFreq ft), 0) := by
  have hpos := List.length_pos_iff.mpr hft
  have hlt : u.len < 2 ^ 32 := u.latched.regs.srcLen.isLt
  rw [length_textArtifact] at hlen
  simp only [textArtifact, Memory.holds_append, length_toBE, and_assoc] at h
  obtain ⟨hcount, hentries, -⟩ := h
  have hn : u.srcRead 0 4 = ft.length := hcount.readBE (by omega)
  have hheader := headerEntries_of_holds hentries
  refine freqLoad_ok.mpr ?_
  rw [hn, hheader]
  exact ⟨by simpa [srcInMemory, State.src, State.len] using hsrc, by omega, by omega, by omega, hasc,
    hsum, hcap, rfl, rfl⟩

/-- The artifact that TEXT_ENCODE wrote stands at DST_ADDR, OUT_LEN bytes long (30_encoding.md R90). -/
theorem textEncode_ok_holds {s u : State} {out : Nat} (h : textEncode s = .ok (u, out)) :
    u.mem.Holds s.dst (textArtifact (countFreq s.symbols) (textPack s.symbols)) ∧
      (u.succeeded out).outLen.toNat =
        (textArtifact (countFreq s.symbols) (textPack s.symbols)).length := by
  obtain ⟨-, -, -, -, -, -, -, hcap, rfl, rfl⟩ := textEncode_ok.mp h
  have hlt : s.cap < 2 ^ 32 := s.latched.regs.dstCap.isLt
  exact ⟨s.mem.bytes_writeBytes _ _, Nat.mod_eq_of_lt (by omega)⟩

end Sys2Proof.Machine

namespace Sys2Proof.Proofs

open Sys2Proof Sys2Proof.Machine

/-- Settles O48: FREQ_LOAD reads the encoder's FT back from the header, and TREE and CT are functions
of FT. -/
theorem artifactRebuildsTheEncodersTables : Obligations.ArtifactRebuildsTheEncodersTables := by
  intro s t u ht herr hparams hsrc hlen hread hbad
  obtain ⟨y, out, hok, rfl⟩ := exec_of_err_none ht herr
  obtain ⟨hmem, hout⟩ := textEncode_ok_holds hok
  obtain ⟨-, -, -, hne, hmod, hsyms, hmax, -⟩ := textEncode_ok.mp hok
  have hft : countFreq s.symbols ≠ [] := countFreq_ne_nil (List.length_pos_iff.mp (by simp; omega))
  rw [spec_src_eq, spec_dst_eq] at hsrc
  rw [spec_len_eq, hout] at hlen
  have hholds : u.mem.Holds u.src (textArtifact (countFreq s.symbols) (textPack s.symbols)) := by
    rw [← hsrc] at hmem
    refine Eq.trans (Memory.bytes_congr fun i hi => hread _ ?_) hmem
    simp only [Spec.InSrc, spec_src_eq, spec_len_eq]
    omega
  have hload := freqLoad_of_holds hholds hlen hbad hft (ascending_countFreq _)
    (freqSum_countFreq_symbols s) (hparams ▸ hsyms)
  rw [State.succeeded_tables, resultOf_ok_tables hok]
  exact ⟨_, _, _, exec_of_ok hload, rfl, exec_of_ok (treeBuild_ok.mpr ⟨hft, rfl, rfl⟩),
    exec_of_ok (codeGen_ok.mpr ⟨rfl, hparams ▸ hmax, rfl, rfl⟩), rfl⟩

end Sys2Proof.Proofs
end

section
/-! The packed text: the code of a symbol, and that packed codes can be told apart
(41_text_codec.md R140, R143 point 4). -/

namespace Sys2Proof.Machine

open Spec (IsCodeOf)
open InformationTheory (UniquelyDecodable)

/-! ### The code of a symbol (41_text_codec.md R140) -/

/-- A symbol that no other entry has is found at its entry. -/
theorem symIndex_of_getElem? {ft : List FreqEntry} {i : Nat} {e : FreqEntry} (he : ft[i]? = some e)
    (huniq : ∀ (j : Nat) (d : FreqEntry), ft[j]? = some d → d.sym = e.sym → j = i) :
    symIndex ft e.sym = some i := by
  obtain ⟨hi, rfl⟩ := List.getElem?_eq_some_iff.mp he
  refine List.findIdx?_eq_some_iff_getElem.mpr ⟨hi, by simp, fun j hj hsym => hj.ne ?_⟩
  exact huniq j _ (List.getElem?_eq_getElem (hj.trans hi)) (by simpa using hsym)

theorem codeOf_of_getElem? {ft : List FreqEntry} {ct : List Code} {i : Nat} {e : FreqEntry} {c : Code}
    (huniq : ∀ (j : Nat) (d : FreqEntry), ft[j]? = some d → d.sym = e.sym → j = i)
    (he : ft[i]? = some e) (hc : ct[i]? = some c) : codeOf ft ct e.sym = c := by
  simp [codeOf, symIndex_of_getElem? he huniq, hc]

/-- An ascending table has one entry for each of its symbols. -/
theorem index_eq_of_sym_eq {ft : List FreqEntry} (h : ft.Pairwise SymLt) {i j : Nat}
    {d e : FreqEntry} (hd : ft[i]? = some d) (he : ft[j]? = some e) (hsym : d.sym = e.sym) :
    i = j := by
  obtain ⟨hi, rfl⟩ := List.getElem?_eq_some_iff.mp hd
  obtain ⟨hj, rfl⟩ := List.getElem?_eq_some_iff.mp he
  have hlt := List.pairwise_iff_getElem.mp h
  by_contra hne
  rcases Nat.lt_or_gt_of_ne hne with hij | hij
  · exact absurd (hlt i j hi hj hij) (by simp [SymLt, hsym])
  · exact absurd (hlt j i hj hi hij) (by simp [SymLt, hsym])

/-- In an ascending table `codeOf` gives a symbol its CT code. -/
theorem codeOf_of_isCodeOf {T : Tables} (h : T.ft.Pairwise SymLt) {x : Word} {c : Code}
    (hx : IsCodeOf T x c) : codeOf T.ft T.ct x = c := by
  obtain ⟨i, e, he, rfl, hc⟩ := hx
  exact codeOf_of_getElem? (fun j d hd hsym => index_eq_of_sym_eq h hd he hsym) he hc

/-- A code table as long as FT has a code for every symbol of FT. -/
theorem exists_isCodeOf {T : Tables} (hlen : T.ct.length = T.ft.length) {e : FreqEntry}
    (he : e ∈ T.ft) : ∃ c, IsCodeOf T e.sym c := by
  obtain ⟨i, hi⟩ := List.mem_iff_getElem?.mp he
  have hlt : i < T.ct.length := hlen ▸ (List.getElem?_eq_some_iff.mp hi).1
  exact ⟨_, i, e, hi, rfl, List.getElem?_eq_getElem hlt⟩

/-! ### A code table in which no code begins another can be decoded (10_state.md R45) -/

/-- No code of the table begins the code of another entry (10_state.md R45). -/
def PrefixFree (ct : List Code) : Prop :=
  ∀ (i j : Nat) (c d : Code), i ≠ j → ct[i]? = some c → ct[j]? = some d → ¬ c <+: d

theorem PrefixFree.index_eq {ct : List Code} (h : PrefixFree ct) {i j : Nat} {c d : Code}
    (hi : ct[i]? = some c) (hj : ct[j]? = some d) (hcd : c <+: d) : i = j := by
  by_contra hij
  exact h i j c d hij hi hj hcd

theorem PrefixFree.eq_of_prefix {ct : List Code} (h : PrefixFree ct) {c d : Code} (hc : c ∈ ct)
    (hd : d ∈ ct) (hcd : c <+: d) : c = d := by
  obtain ⟨i, hi⟩ := List.mem_iff_getElem?.mp hc
  obtain ⟨j, hj⟩ := List.mem_iff_getElem?.mp hd
  obtain rfl := h.index_eq hi hj hcd
  exact Option.some.inj (hi.symm.trans hj)

/-- Two symbols with one code are one symbol. -/
theorem PrefixFree.sym_eq {T : Tables} (h : PrefixFree T.ct) {x y : Word} {c d : Code}
    (hx : IsCodeOf T x c) (hy : IsCodeOf T y d) (hcd : c = d) : x = y := by
  obtain ⟨i, a, ha, rfl, hi⟩ := hx
  obtain ⟨j, b, hb, rfl, hj⟩ := hy
  obtain rfl := h.index_eq hi hj (hcd ▸ List.prefix_rfl)
  exact congrArg FreqEntry.sym (Option.some.inj (ha.symm.trans hb))

/-- Of the first codes of two sequences with one concatenation, one begins the other. -/
theorem PrefixFree.uniquelyDecodable {ct : List Code} (h : PrefixFree ct) (hne : [] ∉ ct) :
    UniquelyDecodable {c | c ∈ ct} := by
  intro cs
  induction cs with
  | nil =>
    rintro (_ | ⟨d, ds⟩) - hds heq
    · rfl
    · obtain ⟨rfl, -⟩ := List.append_eq_nil_iff.mp heq.symm
      exact absurd (hds [] (by simp)) hne
  | cons c cs ih =>
    rintro (_ | ⟨d, ds⟩) hcs hds heq
    · obtain ⟨rfl, -⟩ := List.append_eq_nil_iff.mp heq
      exact absurd (hcs [] (by simp)) hne
    · obtain ⟨hc, hcs'⟩ := List.forall_mem_cons.mp hcs
      obtain ⟨hd, hds'⟩ := List.forall_mem_cons.mp hds
      rw [List.flatten_cons, List.flatten_cons] at heq
      have hd' : d <+: c ++ cs.flatten := heq ▸ List.prefix_append d _
      obtain rfl : c = d := by
        rcases List.prefix_or_prefix_of_prefix (List.prefix_append c _) hd' with hcd | hdc
        exacts [h.eq_of_prefix hc hd hcd, (h.eq_of_prefix hd hc hdc).symm]
      rw [ih ds hcs' hds' (List.append_cancel_left heq)]

/-! ### The bit stream of a text -/

/-- The packed bytes and the bit length determine the bit stream (30_encoding.md R93). -/
theorem packBits_inj {bs cs : List Bool} (hbytes : (packBits bs).bytes = (packBits cs).bytes)
    (hlen : (packBits bs).bitLen = (packBits cs).bitLen) : bs = cs := by
  refine List.ext_getElem hlen fun k hk hk' => ?_
  have hbyte : (packBits bs).bytes[k / 8]? = some _ :=
    List.getElem?_eq_getElem (by rw [length_packBits]; omega)
  have hbit := (getLsbD_packBits hbyte).symm.trans
    (getLsbD_packBits (by rw [← hbytes]; exact hbyte))
  simpa only [List.getD_eq_getElem _ _ hk, List.getD_eq_getElem _ _ hk'] using hbit

/-- Where the codes of CT can be told apart, so can the packed texts of its symbols. -/
theorem pack_inj {T : Tables} (hft : T.ft.Pairwise SymLt) (hpf : PrefixFree T.ct) (hne : [] ∉ T.ct)
    {xs ys : List Word} (hxs : ∀ x ∈ xs, ∃ c, IsCodeOf T x c) (hys : ∀ y ∈ ys, ∃ c, IsCodeOf T y c)
    (hbytes : (pack xs T.ft T.ct).bytes = (pack ys T.ft T.ct).bytes)
    (hlen : (pack xs T.ft T.ct).bitLen = (pack ys T.ft T.ct).bitLen) : xs = ys := by
  have hcode : ∀ x, (∃ c, IsCodeOf T x c) → IsCodeOf T x (codeOf T.ft T.ct x) := by
    rintro x ⟨c, hc⟩
    rwa [codeOf_of_isCodeOf hft hc]
  lift xs to List {x // ∃ c, IsCodeOf T x c} using hxs
  lift ys to List {x // ∃ c, IsCodeOf T x c} using hys
  have hmem : ∀ zs : List {x // ∃ c, IsCodeOf T x c},
      ∀ c ∈ zs.map (codeOf T.ft T.ct ∘ Subtype.val), c ∈ T.ct := by
    intro zs c hc
    obtain ⟨z, -, rfl⟩ := List.mem_map.mp hc
    obtain ⟨i, -, -, -, hi⟩ := hcode z z.2
    exact List.mem_of_getElem? hi
  have hcodes := hpf.uniquelyDecodable hne _ _ (hmem xs) (hmem ys)
    (by simpa [List.flatMap_def] using packBits_inj hbytes hlen)
  have hinj : Function.Injective (codeOf T.ft T.ct ∘ Subtype.val : {x // ∃ c, IsCodeOf T x c} → _) :=
    fun x y h => Subtype.ext (hpf.sym_eq (hcode x x.2) (hcode y y.2) h)
  rw [List.map_injective_iff.mpr hinj hcodes]

end Sys2Proof.Machine

namespace Sys2Proof.Proofs

open Sys2Proof Sys2Proof.Machine

/-- Settles O41: the bytes and the bit length determine the bit stream, and a code table in which
no code begins another the sequence of codes that a bit stream concatenates. -/
theorem packedTextIsUniquelyDecodable : Obligations.PackedTextIsUniquelyDecodable := by
  refine ⟨fun xs ft ct => ⟨rfl, List.length_flatMap⟩, fun ft ct i e c => codeOf_of_getElem?,
    fun s hs hv => ?_⟩
  have hft := ascending_iff_pairwise.mp hs.ft_ascending
  obtain ⟨hlen, hbounds, -, hpf, -⟩ := validCodesArePrefixFree s hs hv
  have hne : [] ∉ s.tables.ct := fun h => absurd (hbounds [] h).1 (by simp)
  exact ⟨fun e => exists_isCodeOf hlen, fun x c => codeOf_of_isCodeOf hft,
    fun xs ys => pack_inj hft hpf hne⟩

end Sys2Proof.Proofs
end

section
/-! The text codec commands rule by rule (41_text_codec.md R141, R142). -/

namespace Sys2Proof.Machine

/-! ### The checks of HUFF_PACK and TEXT_ENCODE -/

/-- Two checks with one error code are one check. -/
theorem raiseIf_bind_raiseIf (a b : Bool) (e : ErrCode) :
    (raiseIf a e >>= fun _ => raiseIf b e) = raiseIf (a || b) e := by
  cases a <;> rfl

theorem checkDst_eq (s : State) : checkDst s = raiseIf (decide (Spec.DstBad s)) .addressError := by
  rw [checkDst, raiseIf_bind_raiseIf]
  congr 1
  simp [dstInMemory, rangesOverlap, State.src, State.len, State.dst, State.cap, ← decide_not]

/-- `idx` has no value exactly where no entry has the symbol. -/
theorem isNone_symIndex (ft : List FreqEntry) (x : Word) :
    (symIndex ft x).isNone = decide (∀ e ∈ ft, e.sym ≠ x) := by
  rw [Bool.eq_iff_iff, Option.isNone_iff_eq_none, symIndex, List.findIdx?_eq_none_iff]
  simp

/-- A code is too long exactly where the longest code is. -/
theorem lt_maxLen_iff {cs : List Code} {k : Nat} : k < maxLen cs ↔ ∃ c ∈ cs, k < c.length := by
  rw [← not_iff_not, Nat.not_lt, maxLen_le_iff]
  simp

theorem spec_stored_eq (s : State) (bs : List Byte) : Spec.stored s bs = (s.storeBytes bs).mem := by
  rw [Spec.stored, spec_dst_eq]
  rfl

theorem spec_textLayout_eq (ft : List FreqEntry) (p : Packed) :
    Spec.textLayout ft p = textArtifact ft p := by
  rw [textArtifact, List.flatMap_def]
  rfl

/-! ### The pseudocode as a list of checks -/

theorem huffPack_eq (s : State) : huffPack s = endsWith (Spec.huffPackChecks s)
    ((s.storeBytes (pack s.symbols s.tables.ft s.tables.ct).bytes).setResult
      (s.result.withPack (pack s.symbols s.tables.ft s.tables.ct) (s.len / 4)),
      (pack s.symbols s.tables.ft s.tables.ct).bytes.length) := by
  simp only [Spec.huffPackChecks, endsWith_firstRaise_cons, endsWith_firstRaise_nil, ← checkSrc_eq,
    ← checkDst_eq, ← isNone_symIndex, spec_symbols_eq, spec_len_eq, spec_cap_eq, ne_eq, decide_not,
    Bool.decide_eq_false]
  rfl

theorem textEncode_eq (s : State) : textEncode s = endsWith (Spec.textEncodeChecks s)
    (((s.storeBytes (textArtifact (countFreq s.symbols) (textPack s.symbols))).setTables
      (tablesAfter s .textEncode)).setResult (s.result.withPack (textPack s.symbols) (s.len / 4)),
      (textArtifact (countFreq s.symbols) (textPack s.symbols)).length) := by
  simp only [Spec.textEncodeChecks, endsWith_firstRaise_cons, endsWith_firstRaise_nil, ← checkSrc_eq,
    ← checkDst_eq, ← lt_maxLen_iff, ← length_textArtifact, spec_symbols_eq, spec_len_eq,
    spec_cap_eq, ne_eq, decide_not]
  rfl

end Sys2Proof.Machine

namespace Sys2Proof.Proofs

open Sys2Proof Sys2Proof.Machine

/-- Settles O28: the pseudocode is its list of checks. -/
theorem huffPackFollowsItsRule : Obligations.HuffPackFollowsItsRule := by
  intro s
  simp only [spec_symbols_eq, spec_len_eq, spec_stored_eq]
  exact exec_of_endsWith (huffPack_eq s)

/-- Settles O29: the pseudocode is its list of checks, and the layout of 30_encoding.md R90 is the
artifact. -/
theorem textEncodeFollowsItsRule : Obligations.TextEncodeFollowsItsRule := by
  intro s
  simp only [spec_symbols_eq, spec_len_eq, spec_stored_eq, spec_textLayout_eq, ← length_textArtifact]
  exact exec_of_endsWith (textEncode_eq s)

/-- Settles O49: the checks of the stepwise commands are among those of TEXT_ENCODE, and TREE and CT
are functions of FT. -/
theorem textEncodeTablesAreTheStepwiseTables : Obligations.TextEncodeTablesAreTheStepwiseTables := by
  intro s t ht herr
  obtain ⟨u, out, hok, rfl⟩ := exec_of_err_none ht herr
  obtain ⟨hsrc, -, -, hne, hmod, hsyms, hmax, -, rfl, rfl⟩ := textEncode_ok.mp hok
  have hft : countFreq s.symbols ≠ [] := countFreq_ne_nil (List.length_pos_iff.mp (by simp; omega))
  exact ⟨_, _, _, exec_of_ok (freqCount_ok.mpr ⟨hsrc, hne, hmod, hsyms, rfl, rfl⟩),
    exec_of_ok (treeBuild_ok.mpr ⟨hft, rfl, rfl⟩),
    exec_of_ok (codeGen_ok.mpr ⟨rfl, hmax, rfl, rfl⟩), rfl, rfl, rfl⟩

end Sys2Proof.Proofs
end

section
/-! The run builder of the image and the audio coder (42_image_rle.md R160, 43_audio_rle.md R182). -/

namespace Sys2Proof.Machine

theorem expand_cons {α : Type} (r : α × Nat) (runs : List (α × Nat)) :
    expand (r :: runs) = List.replicate r.2 r.1 ++ expand runs := rfl

section
variable {α : Type} [DecidableEq α] {cap : Option Nat} {m : Nat} {cur : α} {cnt : Nat} {xs : List α}

/-! ### The runs expand to the sequence -/

/-- The running count stands for that many copies of the running value. -/
theorem expand_runsFrom (cap : Option Nat) (cur : α) (cnt : Nat) (xs : List α) :
    expand (runsFrom cap cur cnt xs) = List.replicate cnt cur ++ xs := by
  fun_induction runsFrom cap cur cnt xs with
  | case1 cur cnt => simp [expand]
  | case2 cur cnt x xs hext ih =>
    obtain ⟨rfl, -⟩ : x = cur ∧ mayExtend cap cnt = true := by simpa using hext
    rw [ih, List.replicate_succ', List.append_assoc]
    rfl
  | case3 cur cnt x xs hclose ih =>
    rw [expand_cons, ih]
    rfl

theorem expand_runsOf (cap : Option Nat) (xs : List α) : expand (runsOf cap xs) = xs := by
  cases xs with
  | nil => rfl
  | cons x xs => exact expand_runsFrom cap x 1 xs

/-! ### The lengths of the runs -/

theorem one_le_of_mem_runsFrom {r : α × Nat} (hcnt : 1 ≤ cnt) (hr : r ∈ runsFrom cap cur cnt xs) :
    1 ≤ r.2 := by
  fun_induction runsFrom cap cur cnt xs with
  | case1 cur cnt =>
    obtain rfl := List.mem_singleton.mp hr
    exact hcnt
  | case2 cur cnt x xs hext ih => exact ih (by omega) hr
  | case3 cur cnt x xs hclose ih =>
    obtain rfl | hr := List.mem_cons.mp hr
    exacts [hcnt, ih le_rfl hr]

/-- No run is empty. -/
theorem one_le_of_mem_runsOf {r : α × Nat} (hr : r ∈ runsOf cap xs) : 1 ≤ r.2 := by
  cases xs with
  | nil => cases hr
  | cons x xs => exact one_le_of_mem_runsFrom le_rfl hr

/-- A count below the cap may be extended by one, and every other count begins at 1. -/
theorem le_of_mem_runsFrom_some {r : α × Nat} (hm : 1 ≤ m) (hcnt : cnt ≤ m)
    (hr : r ∈ runsFrom (some m) cur cnt xs) : r.2 ≤ m := by
  fun_induction runsFrom (some m) cur cnt xs with
  | case1 cur cnt =>
    obtain rfl := List.mem_singleton.mp hr
    exact hcnt
  | case2 cur cnt x xs hext ih =>
    obtain ⟨-, hlt⟩ : x = cur ∧ cnt < m := by simpa [mayExtend] using hext
    exact ih hlt hr
  | case3 cur cnt x xs hclose ih =>
    obtain rfl | hr := List.mem_cons.mp hr
    exacts [hcnt, ih hm hr]

/-- No run is longer than the cap. -/
theorem le_of_mem_runsOf_some {r : α × Nat} (hm : 1 ≤ m) (hr : r ∈ runsOf (some m) xs) :
    r.2 ≤ m := by
  cases xs with
  | nil => cases hr
  | cons x xs => exact le_of_mem_runsFrom_some hm hm hr

/-! ### A run ends only where it must -/

/-- The first run has the running value. -/
theorem head?_runsFrom {r : α × Nat} (hr : r ∈ (runsFrom cap cur cnt xs).head?) : r.1 = cur := by
  fun_induction runsFrom cap cur cnt xs with
  | case1 cur cnt =>
    obtain rfl : (cur, cnt) = r := by simpa using hr
    rfl
  | case2 cur cnt x xs hext ih => exact ih hr
  | case3 cur cnt x xs hclose ih =>
    obtain rfl : (cur, cnt) = r := by simpa using hr
    rfl

/-- Run `a` is followed by run `b` of the same value only where `a` may grow no further. -/
def SplitsOnlyAt (cap : Option Nat) (a b : α × Nat) : Prop := a.1 = b.1 → mayExtend cap a.2 = false

theorem isChain_runsFrom (cap : Option Nat) (cur : α) (cnt : Nat) (xs : List α) :
    (runsFrom cap cur cnt xs).IsChain (SplitsOnlyAt cap) := by
  fun_induction runsFrom cap cur cnt xs with
  | case1 cur cnt => exact .singleton _
  | case2 cur cnt x xs hext ih => exact ih
  | case3 cur cnt x xs hclose ih =>
    refine List.isChain_cons.mpr ⟨fun b hb hval => ?_, ih⟩
    have hx : x = cur := (hval.trans (head?_runsFrom hb)).symm
    simpa [hx] using hclose

/-- Two adjacent runs have one value only where the first may grow no further. -/
theorem mayExtend_of_adjacent_runs {i : Nat} {a b : α × Nat} (ha : (runsOf cap xs)[i]? = some a)
    (hb : (runsOf cap xs)[i + 1]? = some b) (hval : a.1 = b.1) : mayExtend cap a.2 = false := by
  cases xs with
  | nil => cases ha
  | cons x xs =>
    obtain ⟨_, rfl⟩ := List.getElem?_eq_some_iff.mp ha
    obtain ⟨hi, rfl⟩ := List.getElem?_eq_some_iff.mp hb
    exact List.isChain_iff_getElem.mp (isChain_runsFrom cap x 1 xs) i hi hval

/-! ### A sequence of one value -/

/-- Values equal to the running one are counted while the cap allows it. -/
theorem runsFrom_replicate_append {k : Nat} (h : cnt + k ≤ m) (c : α) (xs : List α) :
    runsFrom (some m) c cnt (List.replicate k c ++ xs) = runsFrom (some m) c (cnt + k) xs := by
  induction k generalizing cnt with
  | zero => rfl
  | succ k ih =>
    have hlt : cnt < m := by omega
    have hext : (decide (c = c) && mayExtend (some m) cnt) = true := by simp [mayExtend, hlt]
    rw [List.replicate_succ, List.cons_append, runsFrom, if_pos hext, ih (by omega),
      Nat.add_assoc, Nat.add_comm 1]

/-- A run at the cap is closed, whatever follows. -/
theorem runsFrom_at_cap (c : α) (xs : List α) :
    runsFrom (some m) c m xs = (c, m) :: runsOf (some m) xs := by
  cases xs with
  | nil => rfl
  | cons x xs => simp [runsFrom, runsOf, mayExtend]

theorem runsOf_replicate_cap_add (hm : 1 ≤ m) (c : α) (L : Nat) :
    runsOf (some m) (List.replicate (m + L) c) = (c, m) :: runsOf (some m) (List.replicate L c) := by
  obtain ⟨k, rfl⟩ := Nat.exists_eq_add_of_le hm
  rw [List.replicate_add, List.replicate_add, List.append_assoc]
  exact (runsFrom_replicate_append le_rfl c _).trans (runsFrom_at_cap c _)

/-- At most as many equal values as the cap allows are one run, or none of no value (log 17). -/
theorem runsOf_replicate_of_le {L : Nat} (h : L ≤ m) (c : α) :
    runsOf (some m) (List.replicate L c) = if L = 0 then [] else [(c, L)] := by
  cases L with
  | zero => rfl
  | succ k =>
    have hrun := runsFrom_replicate_append (cnt := 1) (k := k) (m := m) (by omega) c []
    rwa [List.append_nil, Nat.add_comm 1] at hrun

/-- `L` equal values are `L div m` full runs and one of the rest. -/
theorem runsOf_replicate (hm : 1 ≤ m) (c : α) (L : Nat) :
    runsOf (some m) (List.replicate L c) =
      List.replicate (L / m) (c, m) ++ if L % m = 0 then [] else [(c, L % m)] := by
  rw [← runsOf_replicate_of_le (Nat.mod_lt L hm).le]
  conv_lhs => rw [← Nat.div_add_mod L m]
  induction L / m with
  | zero => simp
  | succ q ih =>
    rw [Nat.mul_succ, Nat.add_comm (m * q), Nat.add_assoc, runsOf_replicate_cap_add hm, ih]
    rfl

end

/-! ### The runs of an image (42_image_rle.md R160) -/

theorem expand_rleImg (p : List Pixel) : expand (rleImg p) = p := expand_runsOf _ p

theorem runTotal_rleImg (p : List Pixel) : runTotal (rleImg p) = p.length := runTotal_runsOf _ p

theorem length_bounds_of_mem_rleImg {p : List Pixel} {r : Pixel × Nat} (hr : r ∈ rleImg p) :
    1 ≤ r.2 ∧ r.2 ≤ 255 :=
  ⟨one_le_of_mem_runsOf hr, le_of_mem_runsOf_some (by decide) hr⟩

end Sys2Proof.Machine

namespace Sys2Proof.Proofs

open Sys2Proof Sys2Proof.Machine

/-- Settles O43: the laws of the run builder at the cap of 255. -/
theorem imageRunsAreCappedAndExact : Obligations.ImageRunsAreCappedAndExact := by
  refine ⟨fun p _ => ⟨?_, fun r => length_bounds_of_mem_rleImg, fun i a b ha hb hval => ?_⟩,
    runsOf_replicate (by decide)⟩
  · rw [← List.flatMap_def]
    exact expand_rleImg p
  · have hfull : 255 ≤ a.2 := by
      simpa [mayExtend] using mayExtend_of_adjacent_runs ha hb hval
    exact (length_bounds_of_mem_rleImg (List.mem_of_getElem? ha)).2.antisymm hfull

end Sys2Proof.Proofs
end

section
/-! The image commands rule by rule (42_image_rle.md R161 to R163), and the lossless round trip
(R164). -/

namespace Sys2Proof.Machine

/-! ### The spec's layouts and the model's (30_encoding.md R88, R91) -/

@[simp] theorem spec_pixels_eq (s : State) : Spec.pixels s = s.pixels := by
  simp [Spec.pixels, State.pixels, State.srcByte, Nat.add_assoc]

@[simp] theorem spec_imageRuns_eq (s : State) : Spec.imageRuns s = s.imgRuns (s.srcRead 8 4) := by
  simp [Spec.imageRuns, State.imgRuns, State.srcByte, Nat.add_assoc]

theorem spec_imageLayout_eq (w h : Nat) (runs : List (Pixel × Nat)) :
    Spec.imageLayout w h runs = imgArtifact w h runs := by
  simp [Spec.imageLayout, imgArtifact, List.flatMap_def, Pixel.bytes, toBE]

/-- Expanding runs of pixels and then writing out each pixel, or writing out each pixel of a run. -/
theorem flatMap_bytes_expand (runs : List (Pixel × Nat)) :
    (expand runs).flatMap Pixel.bytes =
      (runs.map fun r => (List.replicate r.2 [r.1.r, r.1.g, r.1.b]).flatten).flatten := by
  rw [expand, List.flatMap_assoc, List.flatMap_def]
  simp [List.flatMap_def, Pixel.bytes]

@[simp] theorem length_pixels (s : State) : s.pixels.length = s.len / 3 := by simp [State.pixels]

@[simp] theorem length_imgRuns (s : State) (rc : Nat) : (s.imgRuns rc).length = rc := by
  simp [State.imgRuns]

/-! ### The pseudocode as a list of checks -/

theorem imgEncode_eq (s : State) : imgEncode s = endsWith (Spec.imgEncodeChecks s)
    ((s.storeBytes s.imgOutput).setResult
      (s.result.withRuns (rleImg s.pixels).length (s.len / 3)), s.imgOutput.length) := by
  simp only [Spec.imgEncodeChecks, endsWith_firstRaise_cons, endsWith_firstRaise_nil, ← checkSrc_eq,
    ← checkDst_eq, spec_pixels_eq, spec_len_eq, spec_cap_eq, operands_eq_latched, ne_eq, decide_not,
    ← length_imgArtifact s.latched.regs.imgWidth.toNat s.latched.regs.imgHeight.toNat]
  rfl

/-- What IMG_DECODE leaves of the pixels' bytes, the size and the runs that it has read. -/
theorem decodedImage_eq (s : State) (bs : List Byte) (w h rc n : Nat) :
    ((s.storeBytes bs).setRegs (s.regs.withImage w h)).setResult (s.result.withRuns rc n) =
      { s with
        mem := Spec.stored s bs
        regs := { s.regs with imgWidth := BitVec.ofNat 32 w, imgHeight := BitVec.ofNat 32 h }
        result := { s.result with runs := BitVec.ofNat 32 rc, count := BitVec.ofNat 32 n } } := by
  rw [spec_stored_eq]
  rfl

theorem imgDecode_eq (s : State) : imgDecode s = endsWith (Spec.imgDecodeChecks s)
    (((s.storeBytes ((expand (s.imgRuns (s.srcRead 8 4))).flatMap Pixel.bytes)).setRegs
      (s.regs.withImage (s.srcRead 0 4) (s.srcRead 4 4))).setResult
      (s.result.withRuns (s.srcRead 8 4) (s.srcRead 0 4 * s.srcRead 4 4)),
      3 * (s.srcRead 0 4 * s.srcRead 4 4)) := by
  have hempty : ((s.imgRuns (s.srcRead 8 4)).any fun r => r.2 == 0) =
      decide (∃ r ∈ s.imgRuns (s.srcRead 8 4), r.2 = 0) := by
    rw [Bool.eq_iff_iff]
    simp
  simp only [Spec.imgDecodeChecks, endsWith_firstRaise_cons, endsWith_firstRaise_nil, ← checkSrc_eq,
    ← checkDst_eq, spec_imageRuns_eq, spec_field_eq, spec_len_eq, spec_cap_eq, ne_eq, decide_not,
    ← hempty, imgDecode, parseImg, bind_assoc, pure_bind, length_imgRuns]
  rfl

/-! ### An image artifact in memory (30_encoding.md R91) -/

/-- Bytes that stand in another memory stand in the source range that agrees with it. -/
theorem holds_of_agrees_on_source {u : State} {m : Memory} {bs : List Byte}
    (hlen : u.len = bs.length) (hread : ∀ a, Spec.InSrc u a → u.mem.read a = m.read a)
    (h : m.Holds u.src bs) : u.mem.Holds u.src bs := by
  refine (Memory.bytes_congr fun i hi => hread _ ?_).trans h
  simp [Spec.InSrc, hlen, hi]

theorem length_imgRecord (r : Pixel × Nat) : (r.1.bytes ++ toBE 1 r.2).length = 4 := by simp

/-- A run record whose length fits one byte reads back. -/
theorem Memory.Holds.imgRecord {m : Memory} {a : Nat} {r : Pixel × Nat}
    (h : m.Holds a (r.1.bytes ++ toBE 1 r.2)) (hr : r.2 < 256) :
    r = (⟨m.read a, m.read (a + 1), m.read (a + 2)⟩, (m.read (a + 3)).toNat) := by
  rw [Memory.Holds, length_imgRecord] at h
  obtain ⟨hred, hgreen, hblue, hlen⟩ : m.read a = r.1.r ∧ m.read (a + 1) = r.1.g ∧
      m.read (a + 2) = r.1.b ∧ m.read (a + 3) = BitVec.ofNat 8 r.2 := by
    simpa [Memory.bytes, List.range_succ, Pixel.bytes, toBE] using h
  rw [hred, hgreen, hblue, hlen, BitVec.toNat_ofNat, Nat.mod_eq_of_lt hr]

theorem imgRuns_of_holds {u : State} {runs : List (Pixel × Nat)} (hruns : ∀ r ∈ runs, r.2 < 256)
    (h : u.mem.Holds (u.src + 12) (runs.flatMap fun r => r.1.bytes ++ toBE 1 r.2)) :
    u.imgRuns runs.length = runs := by
  apply List.ext_getElem
  · simp
  intro i _ hi
  have hrecord := (h.record length_imgRecord (List.getElem?_eq_getElem hi)).imgRecord
    (hruns _ (List.getElem_mem hi))
  have hoff : ∀ k, u.src + 12 + 4 * i + k = u.src + (12 + k + 4 * i) := by omega
  rw [hrecord, hoff 1, hoff 2, hoff 3, Nat.add_assoc u.src]
  simp [State.imgRuns, State.srcByte]

/-- The parser accepts an artifact of non-empty runs that add up to its size, and reads it back. -/
theorem parseImg_of_holds {u : State} {w h : Nat} {runs : List (Pixel × Nat)}
    (hmem : u.mem.Holds u.src (imgArtifact w h runs)) (hlen : u.len = (imgArtifact w h runs).length)
    (hw : w < 2 ^ 32) (hh : h < 2 ^ 32) (hruns : ∀ r ∈ runs, 1 ≤ r.2 ∧ r.2 ≤ 255)
    (htotal : runTotal runs = w * h) :
    parseImg u = .ok { width := w, height := h, runs := runs } := by
  have hlt : u.len < 2 ^ 32 := u.latched.regs.srcLen.isLt
  rw [length_imgArtifact] at hlen
  simp only [imgArtifact, Memory.holds_append, length_toBE, List.length_append, and_assoc] at hmem
  obtain ⟨hwidth, hheight, hcount, hrecords⟩ := hmem
  have hwidth : u.srcRead 0 4 = w := hwidth.readBE hw
  have hheight : u.srcRead 4 4 = h := hheight.readBE hh
  have hcount : u.srcRead 8 4 = runs.length := hcount.readBE (by omega)
  have hback := imgRuns_of_holds (fun r hr => Nat.lt_succ_of_le (hruns r hr).2) hrecords
  rw [parseImg_ok, hwidth, hheight, hcount, hback]
  exact ⟨by omega, hlen, fun r hr => by have := (hruns r hr).1; omega, htotal, rfl⟩

/-- The artifact that IMG_ENCODE wrote stands at DST_ADDR, OUT_LEN bytes long (30_encoding.md R91). -/
theorem imgEncode_ok_holds {s u : State} {out : Nat} (h : imgEncode s = .ok (u, out)) :
    u.mem.Holds s.dst s.imgOutput ∧ (u.succeeded out).outLen.toNat = s.imgOutput.length := by
  obtain ⟨-, -, -, -, -, -, hcap, rfl, rfl⟩ := imgEncode_ok.mp h
  have hlt : s.cap < 2 ^ 32 := s.latched.regs.dstCap.isLt
  exact ⟨s.mem.bytes_writeBytes _ _, Nat.mod_eq_of_lt (by omega)⟩

/-- Whole pixels are the bytes of the source. -/
theorem flatMap_bytes_pixels {s : State} (h : s.len % 3 = 0) :
    s.pixels.flatMap Pixel.bytes = s.mem.bytes s.src s.len := by
  obtain ⟨n, hn⟩ := Nat.dvd_of_mod_eq_zero h
  rw [State.pixels, hn, Nat.mul_div_cancel_left n (by decide), List.flatMap_map]
  clear hn
  induction n with
  | zero => rfl
  | succ n ih =>
    rw [List.range_succ, List.flatMap_append, ih, Nat.mul_succ, Memory.bytes_add]
    rfl

/-- IMG_DECODE of an artifact that its parser accepts, where the pixels fit. -/
theorem imgDecode_of_parseImg {u : State} {a : ParsedImage} (hparse : parseImg u = .ok a)
    (hsrc : ¬ Spec.SrcBad u) (hdst : ¬ Spec.DstBad u) (hcap : 3 * (a.width * a.height) ≤ u.cap) :
    imgDecode u = .ok (((u.storeBytes ((expand a.runs).flatMap Pixel.bytes)).setRegs
      (u.regs.withImage a.width a.height)).setResult
      (u.result.withRuns a.runs.length (a.width * a.height)), 3 * (a.width * a.height)) := by
  have hsrc : checkSrc u = .ok () := by rw [checkSrc_eq, decide_eq_false hsrc]; rfl
  have hdst : checkDst u = .ok () := by rw [checkDst_eq, decide_eq_false hdst]; rfl
  obtain ⟨hin, hsep⟩ := checkDst_ok.mp hdst
  exact imgDecode_ok.mpr ⟨checkSrc_ok.mp hsrc, hin, hsep, a, hparse, hcap, rfl, rfl⟩

end Sys2Proof.Machine

namespace Sys2Proof.Proofs

open Sys2Proof Sys2Proof.Machine

/-- Settles O30: the pseudocode is its list of checks, and the layout of 30_encoding.md R91 is the
artifact. -/
theorem imgEncodeFollowsItsRule : Obligations.ImgEncodeFollowsItsRule := by
  intro s
  simp only [spec_pixels_eq, spec_len_eq, operands_eq_latched, spec_stored_eq, spec_imageLayout_eq,
    ← length_imgArtifact s.latched.regs.imgWidth.toNat s.latched.regs.imgHeight.toNat]
  exact exec_of_endsWith (imgEncode_eq s)

/-- Settles O31: the pseudocode, with the parser's in its place, is its list of checks. -/
theorem imgDecodeFollowsItsRule : Obligations.ImgDecodeFollowsItsRule := by
  intro s
  simp only [spec_imageRuns_eq, spec_field_eq, ← flatMap_bytes_expand, ← decodedImage_eq]
  exact exec_of_endsWith (imgDecode_eq s)

/-- Settles O46: the artifact in memory passes the parser, which reads the encoder's runs back, and
these expand to the pixels. -/
theorem imageRoundTripIsLossless : Obligations.ImageRoundTripIsLossless := by
  intro s t u ht herr hsrc hlen hread hsrcOk hdstOk hcap
  obtain ⟨y, out, hok, rfl⟩ := exec_of_err_none ht herr
  obtain ⟨hmem, hout⟩ := imgEncode_ok_holds hok
  obtain ⟨-, -, -, -, hmod, hsize, -⟩ := imgEncode_ok.mp hok
  simp only [spec_src_eq, spec_dst_eq, spec_len_eq, spec_cap_eq, operands_eq_latched, hout]
    at hsrc hlen hcap ⊢
  have hholds := holds_of_agrees_on_source hlen hread (hsrc ▸ hmem)
  have hparse := parseImg_of_holds hholds hlen (BitVec.isLt _) (BitVec.isLt _)
    (fun _ => length_bounds_of_mem_rleImg) (by rw [runTotal_rleImg, length_pixels, hsize])
  have hbytes : 3 * (s.latched.regs.imgWidth.toNat * s.latched.regs.imgHeight.toNat) = s.len := by
    omega
  have hdec := imgDecode_of_parseImg hparse hsrcOk hdstOk (hbytes.trans_le hcap)
  refine ⟨_, exec_of_ok hdec, rfl, (resultOf_ok_outLen (i := .imgDecode) hdec).trans hbytes,
    fun k hk => ?_, ?_, ?_⟩
  · refine u.mem.read_writeBytes_inside ?_
    rw [expand_rleImg, flatMap_bytes_pixels hmod]
    simp [Memory.bytes, hk]
  · exact (BitVec.ofNat_toNat ..).trans (BitVec.setWidth_eq _)
  · exact (BitVec.ofNat_toNat ..).trans (BitVec.setWidth_eq _)

end Sys2Proof.Proofs
end

section
/-! The quantizer, the runs of audio, and what the two make of the source samples (43_audio_rle.md
R180, R182). -/

namespace Sys2Proof.Machine

/-! ### The buckets of a sample (43_audio_rle.md R180) -/

theorem quantize_floor (x : Int) (q : Nat) : quantize x q true = x / q * q := by
  rw [quantize, if_pos rfl, Int.fdiv_eq_ediv_of_nonneg x (Int.natCast_nonneg q)]

/-- Truncation treats a sample and its negative alike. -/
theorem quantize_trunc_neg (x : Int) (q : Nat) : quantize (-x) q false = -quantize x q false := by
  simp [quantize, Int.neg_tdiv]

/-- The modes agree on a sample that is not negative. -/
theorem quantize_trunc_of_nonneg {x : Int} (hx : 0 ≤ x) (q : Nat) :
    quantize x q false = quantize x q true := by
  rw [quantize_floor]
  exact congrArg (· * (q : Int)) (Int.tdiv_eq_ediv_of_nonneg hx)

/-- A multiple of the step is its own bucket. -/
theorem quantize_of_dvd {x : Int} {q : Nat} (h : (q : Int) ∣ x) (f : Bool) : quantize x q f = x := by
  cases f
  exacts [Int.tdiv_mul_cancel h, Int.fdiv_mul_cancel h]

/-- The floor bucket is the last multiple of the step up to the sample. -/
theorem quantize_floor_bounds {q : Nat} (hq : 1 ≤ q) (x : Int) :
    x - q < quantize x q true ∧ quantize x q true ≤ x := by
  rw [quantize_floor]
  have hpos : (0 : Int) < q := by omega
  have hlt := Int.lt_ediv_add_one_mul_self x hpos
  rw [Int.add_mul, Int.one_mul] at hlt
  exact ⟨by omega, Int.ediv_mul_le x hpos.ne'⟩

/-- The floor bucket of a sample that is not below -q is not below -q. -/
theorem neg_le_quantize_floor {x : Int} {q : Nat} (hq : 1 ≤ q) (hx : -(q : Int) ≤ x) :
    -(q : Int) ≤ quantize x q true := by
  have hdiv : -1 ≤ x / q := (Int.le_ediv_iff_mul_le (by omega)).mpr (by omega)
  have hmul := Int.mul_le_mul_of_nonneg_right hdiv (Int.natCast_nonneg q)
  rw [quantize_floor]
  omega

theorem quantize_trunc_bounds_of_nonneg {x : Int} {q : Nat} (hq : 1 ≤ q) (hx : 0 ≤ x) :
    0 ≤ quantize x q false ∧ quantize x q false ≤ x ∧ x - q < quantize x q false := by
  rw [quantize_trunc_of_nonneg hx]
  obtain ⟨hlow, hhigh⟩ := quantize_floor_bounds hq x
  refine ⟨?_, hhigh, hlow⟩
  rw [quantize_floor]
  exact Int.mul_nonneg (Int.ediv_nonneg hx (Int.natCast_nonneg q)) (Int.natCast_nonneg q)

/-- The truncated bucket of a negative sample mirrors that of its absolute value. -/
theorem quantize_trunc_bounds_of_nonpos {x : Int} {q : Nat} (hq : 1 ≤ q) (hx : x ≤ 0) :
    x ≤ quantize x q false ∧ quantize x q false ≤ 0 ∧ quantize x q false < x + q := by
  have h := quantize_trunc_bounds_of_nonneg hq (x := -x) (by omega)
  rw [quantize_trunc_neg] at h
  omega

/-- A truncated bucket is a sample, so `clamp16` never changes one. -/
theorem quantize_trunc_in_range {x : Int} {q : Nat} (hq : 1 ≤ q) (hlow : -32768 ≤ x)
    (hhigh : x ≤ 32767) : -32768 ≤ quantize x q false ∧ quantize x q false ≤ 32767 := by
  rcases Int.le_total 0 x with hx | hx
  · have := quantize_trunc_bounds_of_nonneg hq hx
    omega
  · have := quantize_trunc_bounds_of_nonpos hq hx
    omega

/-- A floor bucket fits i32 and is no larger than a sample. -/
theorem quantize_floor_in_range {x : Int} {q : Nat} (hq : 1 ≤ q) (hqmax : q ≤ 2 ^ 31 - 1)
    (hlow : -32768 ≤ x) (hhigh : x ≤ 32767) :
    -(2 ^ 31 - 1) ≤ quantize x q true ∧ quantize x q true ≤ 32767 := by
  obtain ⟨hbelow, habove⟩ := quantize_floor_bounds hq x
  refine ⟨?_, by omega⟩
  rcases Int.le_total (-(q : Int)) x with hx | hx
  · have := neg_le_quantize_floor hq hx
    omega
  · omega

/-- A bucket of either mode fits the i32 field of a run record. -/
theorem quantize_in_i32 {x : Int} {q : Nat} (hq : 1 ≤ q) (hqmax : q ≤ 2 ^ 31 - 1)
    (hlow : -32768 ≤ x) (hhigh : x ≤ 32767) (f : Bool) :
    -(2 ^ 31) ≤ quantize x q f ∧ quantize x q f < 2 ^ 31 := by
  cases f with
  | false =>
    have := quantize_trunc_in_range hq hlow hhigh
    omega
  | true =>
    have := quantize_floor_in_range hq hqmax hlow hhigh
    omega

/-! ### The runs of audio (43_audio_rle.md R182) -/

theorem expand_rleAud (v : List Int) : expand (rleAud v) = v := expand_runsOf _ v

theorem runTotal_rleAud (v : List Int) : runTotal (rleAud v) = v.length := runTotal_runsOf _ v

/-- Without a cap a run may always grow, so the next one has another value. -/
theorem ne_of_adjacent_rleAud {v : List Int} {i : Nat} {a b : Int × Nat}
    (ha : (rleAud v)[i]? = some a) (hb : (rleAud v)[i + 1]? = some b) : a.1 ≠ b.1 := fun hval =>
  absurd (mayExtend_of_adjacent_runs ha hb hval) (by simp [mayExtend])

theorem mem_expand {α : Type} {runs : List (α × Nat)} {x : α} :
    x ∈ expand runs ↔ ∃ r ∈ runs, r.2 ≠ 0 ∧ x = r.1 := by
  simp only [expand, List.mem_flatMap, List.mem_replicate]

/-- The values of the runs are the values of the sequence. -/
theorem exists_mem_rleAud {v : List Int} {P : Int → Prop} :
    (∃ r ∈ rleAud v, P r.1) ↔ ∃ x ∈ v, P x := by
  conv_rhs => rw [← expand_rleAud v]
  constructor
  · rintro ⟨r, hr, hP⟩
    exact ⟨r.1, mem_expand.mpr ⟨r, hr, Nat.ne_of_gt (one_le_of_mem_runsOf hr), rfl⟩, hP⟩
  · rintro ⟨x, hx, hP⟩
    obtain ⟨r, hr, -, rfl⟩ := mem_expand.mp hx
    exact ⟨r, hr, hP⟩

theorem le_runTotal_of_mem {α : Type} {runs : List (α × Nat)} {r : α × Nat} (hr : r ∈ runs) :
    r.2 ≤ runTotal runs := List.le_sum_of_mem (List.mem_map_of_mem hr)

end Sys2Proof.Machine

namespace Sys2Proof.Proofs

open Sys2Proof Sys2Proof.Machine

/-- Settles O44: the laws of the run builder without a cap. -/
theorem audioRunsAreMaximal : Obligations.AudioRunsAreMaximal := by
  refine fun v _ => ⟨?_, fun r => one_le_of_mem_runsOf, fun i a b => ne_of_adjacent_rleAud⟩
  rw [← List.flatMap_def]
  exact expand_rleAud v

/-- Settles O45: the floor bucket is the last multiple of the step up to the sample, the truncated
bucket is that of the absolute value with the sample's sign. -/
theorem quantizeRoundsByItsMode : Obligations.QuantizeRoundsByItsMode := by
  intro x q hlow hhigh hq hqmax
  obtain ⟨htlow, hthigh⟩ := quantize_trunc_in_range hq hlow hhigh
  obtain ⟨hflow, hfhigh⟩ := quantize_floor_in_range hq hqmax hlow hhigh
  obtain ⟨hbelow, habove⟩ := quantize_floor_bounds hq x
  have hagree : 0 ≤ x ∨ (q : Int) ∣ x → quantize x q false = quantize x q true := by
    rintro (hx | hdvd)
    · exact quantize_trunc_of_nonneg hx q
    · rw [quantize_of_dvd hdvd, quantize_of_dvd hdvd]
  have hmagnitude : |quantize x q false| ≤ |x| ∧ |x| - |quantize x q false| < q ∧
      0 ≤ x * quantize x q false := by
    rcases Int.le_total 0 x with hx | hx
    · obtain ⟨hb, hle, hlt⟩ := quantize_trunc_bounds_of_nonneg hq hx
      rw [abs_of_nonneg hx, abs_of_nonneg hb]
      exact ⟨hle, by omega, Int.mul_nonneg hx hb⟩
    · obtain ⟨hle, hb, hlt⟩ := quantize_trunc_bounds_of_nonpos hq hx
      rw [abs_of_nonpos hx, abs_of_nonpos hb]
      exact ⟨by omega, by omega, Int.mul_nonneg_of_nonpos_of_nonpos hx hb⟩
  obtain ⟨habs, hstep, hsign⟩ := hmagnitude
  exact ⟨⟨_, rfl⟩, habs, hstep, hsign, htlow, hthigh, ⟨_, rfl⟩, by omega, habove, hflow, hfhigh,
    hagree⟩

end Sys2Proof.Proofs
end

section
/-! The audio commands rule by rule (43_audio_rle.md R181, R183 to R185), and the lossy round trip
(R186). -/

namespace Sys2Proof.Machine

/-! ### The spec's layouts and the model's (30_encoding.md R89, R92) -/

@[simp] theorem spec_samples_eq (s : State) : Spec.samples s = s.samples := by
  simp [Spec.samples, State.samples, State.srcReadSigned]

@[simp] theorem spec_buckets_eq (s : State) : Spec.buckets s = s.buckets := by
  simp [Spec.buckets, State.buckets]

@[simp] theorem spec_audioRuns_eq (s : State) : Spec.audioRuns s = s.audRuns (s.srcRead 16 4) := by
  simp [Spec.audioRuns, State.audRuns, State.srcReadSigned, Nat.add_assoc]

theorem spec_audioLayout_eq (s : State) (runs : List (Int × Nat)) :
    Spec.audioLayout s.latched.regs runs =
      audArtifact s.audioParams s.latched.regs.qstep.toNat runs := by
  rw [audArtifact, List.flatMap_def]
  rfl

@[simp] theorem length_samples (s : State) : s.samples.length = s.len / 2 := by
  simp [State.samples]

@[simp] theorem length_buckets (s : State) : s.buckets.length = s.len / 2 := by
  simp [State.buckets]

@[simp] theorem length_audRuns (s : State) (rc : Nat) : (s.audRuns rc).length = rc := by
  simp [State.audRuns]

/-! ### Saturation (43_audio_rle.md R183) -/

theorem clamp16_eq_saturate (x : Int) : clamp16 x = Spec.saturate x := by
  simp only [clamp16, Spec.saturate]
  omega

theorem clamp16_in_range (x : Int) : -32768 ≤ clamp16 x ∧ clamp16 x ≤ 32767 := by
  simp only [clamp16]
  omega

theorem clamp16_of_in_range {x : Int} (hlow : -32768 ≤ x) (hhigh : x ≤ 32767) : clamp16 x = x := by
  simp only [clamp16]
  omega

/-- A value that is not above the samples is saturated from below only. -/
theorem clamp16_of_le {x : Int} (hhigh : x ≤ 32767) : clamp16 x = max (-32768) x := by
  rw [clamp16, min_eq_right hhigh]

theorem outOfRange_iff (x : Int) : outOfRange x = true ↔ x < -32768 ∨ 32767 < x := by
  simp [outOfRange]

/-! ### Expanding runs -/

/-- Values changed before or after the expansion. -/
theorem expand_map {α β : Type} (f : α → β) (runs : List (α × Nat)) :
    expand (runs.map fun r => (f r.1, r.2)) = (expand runs).map f := by
  simp [expand, List.flatMap_map, List.map_flatMap]

/-- The bytes of the saturated runs, run by run. -/
theorem flatMap_sampleBytes_expand (runs : List (Int × Nat)) :
    (expand (runs.map fun r => (clamp16 r.1, r.2))).flatMap sampleBytes =
      (runs.map fun r =>
        (List.replicate r.2 (toBE 2 (Spec.saturate r.1 % 2 ^ 16).toNat)).flatten).flatten := by
  rw [expand_map, expand, List.map_flatMap, List.flatMap_assoc, List.flatMap_def]
  simp only [List.map_replicate, List.flatMap_replicate, clamp16_eq_saturate]
  rfl

/-! ### The pseudocode as a list of checks -/

theorem audEncode_eq (s : State) : audEncode s = endsWith (Spec.audEncodeChecks s)
    ((s.storeBytes s.audOutput).setResult
      (s.result.withRuns (rleAud s.buckets).length (s.len / 2)), s.audOutput.length) := by
  have hstep := Bool.decide_or (s.latched.regs.qstep.toNat = 0)
    (0x7FFFFFFF < s.latched.regs.qstep.toNat)
  simp only [Spec.audEncodeChecks, endsWith_firstRaise_cons, endsWith_firstRaise_nil, ← checkSrc_eq,
    ← checkDst_eq, spec_buckets_eq, spec_len_eq, spec_cap_eq, operands_eq_latched, ne_eq, decide_not,
    hstep, ← length_audArtifact s.audioParams s.latched.regs.qstep.toNat]
  rfl

/-- What AUD_DECODE leaves of the samples' bytes, the params and the runs that it has read. -/
theorem decodedAudio_eq (s : State) (bs : List Byte) (p : AudioParams) (rc n : Nat) (sat : Bool) :
    (((s.storeBytes bs).setRegs (s.regs.withAudio p)).setResult (s.result.withRuns rc n)).setSat sat =
      { s with
        mem := Spec.stored s bs
        regs := { s.regs with
          audChannels := BitVec.ofNat 16 p.channels, audSwidth := BitVec.ofNat 16 p.swidth
          audRate := BitVec.ofNat 32 p.rate, audFrames := BitVec.ofNat 32 p.frames }
        result := { s.result with runs := BitVec.ofNat 32 rc, count := BitVec.ofNat 32 n }
        status := { s.status with sat := sat } } := by
  rw [spec_stored_eq]
  rfl

/-- The params in the header of an audio artifact in the source range (30_encoding.md R92). -/
def State.headerParams (s : State) : AudioParams :=
  { channels := s.srcRead 0 2, swidth := s.srcRead 2 2, rate := s.srcRead 4 4, frames := s.srcRead 8 4 }

theorem audDecode_eq (s : State) : audDecode s = endsWith (Spec.audDecodeChecks s)
    ((((s.storeBytes ((expand ((s.audRuns (s.srcRead 16 4)).map
        fun r => (clamp16 r.1, r.2))).flatMap sampleBytes)).setRegs
      (s.regs.withAudio s.headerParams)).setResult
      (s.result.withRuns (s.srcRead 16 4) (s.srcRead 8 4 * s.srcRead 0 2))).setSat
      ((s.audRuns (s.srcRead 16 4)).any fun r => outOfRange r.1),
      2 * (s.srcRead 8 4 * s.srcRead 0 2)) := by
  have hempty : ((s.audRuns (s.srcRead 16 4)).any fun r => r.2 == 0) =
      decide (∃ r ∈ s.audRuns (s.srcRead 16 4), r.2 = 0) := by
    rw [Bool.eq_iff_iff]
    simp
  simp only [Spec.audDecodeChecks, endsWith_firstRaise_cons, endsWith_firstRaise_nil, ← checkSrc_eq,
    ← checkDst_eq, spec_audioRuns_eq, spec_field_eq, spec_len_eq, spec_cap_eq, ne_eq, decide_not,
    ← hempty, audDecode, parseAud, bind_assoc, pure_bind, length_audRuns]
  rfl

theorem any_outOfRange (runs : List (Int × Nat)) : (runs.any fun r => outOfRange r.1) =
    decide (∃ r ∈ runs, r.1 < -32768 ∨ 32767 < r.1) := by
  rw [Bool.eq_iff_iff]
  simp [outOfRange_iff]

/-! ### Signed numbers in memory (00_scope.md R10) -/

/-- A number that `bits` bits hold in two's complement reads back from its low bits. -/
theorem signedOf_emod {bits : Nat} {x : Int} (hbits : 1 ≤ bits) (hlow : -2 ^ (bits - 1) ≤ x)
    (hhigh : x < 2 ^ (bits - 1)) : signedOf bits (x % 2 ^ bits).toNat = x := by
  obtain ⟨k, rfl⟩ := Nat.exists_eq_add_of_le' hbits
  rw [Nat.add_sub_cancel] at hlow hhigh
  have hpow : (2 : Int) ^ (k + 1) = 2 * 2 ^ k := by rw [pow_succ, Int.mul_comm]
  have hcast : ((2 ^ k : Nat) : Int) = 2 ^ k := by norm_cast
  rcases lt_or_ge x 0 with hx | hx
  · have hmod : x % 2 ^ (k + 1) = x + 2 ^ (k + 1) := by
      rw [← Int.add_emod_right, Int.emod_eq_of_lt (by omega) (by omega)]
    rw [hmod, signedOf_of_le (by rw [Nat.add_sub_cancel]; omega), Int.toNat_of_nonneg (by omega),
      Int.add_sub_cancel]
  · have hmod : x % 2 ^ (k + 1) = x := Int.emod_eq_of_lt hx (by omega)
    rw [hmod, signedOf_of_lt (by rw [Nat.add_sub_cancel]; omega), Int.toNat_of_nonneg hx]

/-- Every 16-bit signed read is a sample. -/
theorem Memory.readSigned_two_in_range (m : Memory) (a : Nat) :
    -32768 ≤ m.readSigned a 2 ∧ m.readSigned a 2 ≤ 32767 := by
  have hlt := m.readBE_lt a 2
  simp only [Memory.readSigned, signedOf]
  split <;> omega

/-- A signed number that fits its width reads back. -/
theorem Memory.Holds.readSigned {m : Memory} {a n : Nat} {x : Int} (hn : 1 ≤ n)
    (h : m.Holds a (toBE n (x % 2 ^ (8 * n)).toNat)) (hlow : -2 ^ (8 * n - 1) ≤ x)
    (hhigh : x < 2 ^ (8 * n - 1)) : m.readSigned a n = x := by
  have hlt : (x % 2 ^ (8 * n)).toNat < 256 ^ n := by
    have hpos : (0 : Int) < 2 ^ (8 * n) := by positivity
    rw [Int.toNat_lt (Int.emod_nonneg x hpos.ne')]
    exact (Int.emod_lt_of_pos x hpos).trans_eq (by rw [pow_mul]; norm_cast)
  rw [Memory.readSigned, h.readBE hlt, signedOf_emod (by omega) hlow hhigh]

theorem Memory.holds_writeBytes (m : Memory) (a : Nat) (bs : List Byte) :
    (m.writeBytes a bs).Holds a bs := m.bytes_writeBytes a bs

/-- What a command stores stands at DST_ADDR (20_memory.md R67). -/
theorem State.holds_storeBytes (s : State) (bs : List Byte) : (s.storeBytes bs).mem.Holds s.dst bs :=
  s.mem.holds_writeBytes s.dst bs

/-! ### An audio artifact in memory (30_encoding.md R92) -/

theorem length_audRecord (r : Int × Nat) : (i32be r.1 ++ toBE 4 r.2).length = 8 := by simp

/-- A run record holds its value in 32 bits, signed, and its length in 32 bits. -/
def RecordFits (r : Int × Nat) : Prop := (-2 ^ 31 ≤ r.1 ∧ r.1 < 2 ^ 31) ∧ r.2 < 2 ^ 32

theorem audRuns_of_holds {u : State} {runs : List (Int × Nat)} (hruns : ∀ r ∈ runs, RecordFits r)
    (h : u.mem.Holds (u.src + 20) (runs.flatMap fun r => i32be r.1 ++ toBE 4 r.2)) :
    u.audRuns runs.length = runs := by
  apply List.ext_getElem
  · simp
  intro i _ hi
  obtain ⟨⟨hlow, hhigh⟩, hlen⟩ := hruns _ (List.getElem_mem hi)
  obtain ⟨hval, hcount⟩ := Memory.holds_append.mp
    (h.record length_audRecord (List.getElem?_eq_getElem hi))
  rw [length_i32be] at hcount
  have hval : u.srcReadSigned (20 + 8 * i) 4 = runs[i].1 := by
    rw [State.srcReadSigned, ← Nat.add_assoc]
    exact hval.readSigned (by decide) hlow hhigh
  have hcount : u.srcRead (24 + 8 * i) 4 = runs[i].2 := by
    rw [State.srcRead, show u.src + (24 + 8 * i) = u.src + 20 + 8 * i + 4 by omega]
    exact hcount.readBE hlen
  simp [State.audRuns, hval, hcount]

/-- The parser accepts an artifact of non-empty runs that add up to its frames and channels, and reads
it back. -/
theorem parseAud_of_holds {s u : State} {runs : List (Int × Nat)}
    (hmem : u.mem.Holds u.src (audArtifact s.audioParams s.latched.regs.qstep.toNat runs))
    (hlen : u.len = (audArtifact s.audioParams s.latched.regs.qstep.toNat runs).length)
    (hruns : ∀ r ∈ runs, RecordFits r) (hpos : ∀ r ∈ runs, 1 ≤ r.2)
    (htotal : runTotal runs = s.audioParams.frames * s.audioParams.channels) :
    parseAud u = .ok
      { params := s.audioParams, qstep := s.latched.regs.qstep.toNat, runs := runs } := by
  have hlt : u.len < 2 ^ 32 := u.latched.regs.srcLen.isLt
  rw [length_audArtifact] at hlen
  simp only [audArtifact, Memory.holds_append, length_toBE, List.length_append, and_assoc] at hmem
  obtain ⟨hch, hsw, hrate, hfr, hq, hcount, hrecords⟩ := hmem
  have hch : u.srcRead 0 2 = s.audioParams.channels := hch.readBE (BitVec.isLt _)
  have hsw : u.srcRead 2 2 = s.audioParams.swidth := hsw.readBE (BitVec.isLt _)
  have hrate : u.srcRead 4 4 = s.audioParams.rate := hrate.readBE (BitVec.isLt _)
  have hfr : u.srcRead 8 4 = s.audioParams.frames := hfr.readBE (BitVec.isLt _)
  have hq : u.srcRead 12 4 = s.latched.regs.qstep.toNat := hq.readBE (BitVec.isLt _)
  have hcount : u.srcRead 16 4 = runs.length := hcount.readBE (by omega)
  rw [parseAud_ok, hch, hsw, hrate, hfr, hq, hcount, audRuns_of_holds hruns hrecords]
  exact ⟨by omega, hlen, fun r hr => Nat.ne_of_gt (hpos r hr), htotal, rfl⟩

/-- AUD_DECODE of an artifact that its parser accepts, where the samples fit. -/
theorem audDecode_of_parseAud {u : State} {a : ParsedAudio} (hparse : parseAud u = .ok a)
    (hsrc : ¬ Spec.SrcBad u) (hdst : ¬ Spec.DstBad u)
    (hcap : 2 * (a.params.frames * a.params.channels) ≤ u.cap) :
    audDecode u = .ok ((((u.storeBytes
      (((expand a.runs).map clamp16).flatMap sampleBytes)).setRegs
      (u.regs.withAudio a.params)).setResult
      (u.result.withRuns a.runs.length (a.params.frames * a.params.channels))).setSat
      (a.runs.any fun r => outOfRange r.1), 2 * (a.params.frames * a.params.channels)) := by
  have hsrc : checkSrc u = .ok () := by rw [checkSrc_eq, decide_eq_false hsrc]; rfl
  have hdst : checkDst u = .ok () := by rw [checkDst_eq, decide_eq_false hdst]; rfl
  obtain ⟨hin, hsep⟩ := checkDst_ok.mp hdst
  rw [← expand_map]
  exact audDecode_ok.mpr ⟨checkSrc_ok.mp hsrc, hin, hsep, a, hparse, hcap, rfl, rfl⟩

/-! ### What AUD_ENCODE wrote (43_audio_rle.md R181) -/

theorem mem_samples_in_range {s : State} {x : Int} (hx : x ∈ s.samples) :
    -32768 ≤ x ∧ x ≤ 32767 := by
  obtain ⟨k, -, rfl⟩ := List.mem_map.mp hx
  exact s.mem.readSigned_two_in_range _

theorem getElem?_buckets {s : State} {k : Nat} (hk : k < s.len / 2) :
    s.buckets[k]? = some (quantize (s.mem.readSigned (s.src + 2 * k) 2)
      s.latched.regs.qstep.toNat s.latched.qfloor) := by
  simp [State.buckets, State.samples, State.srcReadSigned, hk]

/-- Every run of an encode fits its record: a bucket fits i32 and a run is no longer than the input. -/
theorem recordFits_of_mem_rleAud {s : State} (hq : 1 ≤ s.latched.regs.qstep.toNat)
    (hqmax : s.latched.regs.qstep.toNat ≤ 2 ^ 31 - 1) {r : Int × Nat} (hr : r ∈ rleAud s.buckets) :
    RecordFits r := by
  have hval : ∀ b ∈ s.buckets, -2 ^ 31 ≤ b ∧ b < 2 ^ 31 := by
    intro b hb
    obtain ⟨x, hx, rfl⟩ := List.mem_map.mp hb
    obtain ⟨hlow, hhigh⟩ := mem_samples_in_range hx
    exact quantize_in_i32 hq hqmax hlow hhigh _
  have hrun : r.2 ≤ s.len / 2 := by
    simpa [runTotal_rleAud] using le_runTotal_of_mem hr
  have hlen : s.len < 2 ^ 32 := s.latched.regs.srcLen.isLt
  obtain ⟨b, hb, hrb⟩ := exists_mem_rleAud.mp ⟨r, hr, rfl⟩
  exact ⟨hrb ▸ hval b hb, by omega⟩

/-- The artifact that AUD_ENCODE wrote stands at DST_ADDR, OUT_LEN bytes long. -/
theorem audEncode_ok_holds {s u : State} {out : Nat} (h : audEncode s = .ok (u, out)) :
    u.mem.Holds s.dst s.audOutput ∧ (u.succeeded out).outLen.toNat = s.audOutput.length := by
  have hout := resultOf_ok_outLen (i := .audEncode) h
  obtain ⟨-, -, -, -, -, -, -, -, -, -, rfl, rfl⟩ := audEncode_ok.mp h
  rw [State.setResult_mem]
  exact ⟨s.holds_storeBytes s.audOutput, hout⟩

/-! ### The lossy round trip (43_audio_rle.md R186) -/

/-- What AUD_DECODE in `u` leaves of an encode of `s`, before its completion: the buckets of `s`,
saturated, and the params of `s`. -/
def State.decodedFrom (u s : State) : State :=
  (((u.storeBytes ((s.buckets.map clamp16).flatMap sampleBytes)).setRegs
    (u.regs.withAudio s.audioParams)).setResult
    (u.result.withRuns (rleAud s.buckets).length (s.len / 2))).setSat
    ((rleAud s.buckets).any fun r => outOfRange r.1)

/-- AUD_DECODE of what AUD_ENCODE wrote. -/
theorem audDecode_of_holds {s u y : State} {out : Nat} (hok : audEncode s = .ok (y, out))
    (hmem : u.mem.Holds u.src s.audOutput) (hlen : u.len = s.audOutput.length)
    (hsrc : ¬ Spec.SrcBad u) (hdst : ¬ Spec.DstBad u) (hcap : s.len ≤ u.cap) :
    audDecode u = .ok (u.decodedFrom s, s.len) := by
  obtain ⟨-, -, -, -, hmod, hq, hqmax, -, hsize, -⟩ := audEncode_ok.mp hok
  have hparse := parseAud_of_holds hmem hlen
    (fun _ => recordFits_of_mem_rleAud (Nat.pos_of_ne_zero hq) hqmax) (fun _ => one_le_of_mem_runsOf)
    (by rw [runTotal_rleAud, length_buckets, hsize])
  have hbytes : 2 * (s.len / 2) = s.len := by omega
  have hdec := audDecode_of_parseAud hparse hsrc hdst (by simpa only [hsize, hbytes] using hcap)
  simpa only [State.decodedFrom, hsize, hbytes, expand_rleAud] using hdec

/-- A sample that was written reads back. -/
theorem readSigned_writeBytes_samples {m : Memory} {a k : Nat} {xs : List Int} {x : Int}
    (hx : xs[k]? = some x) (hlow : -32768 ≤ x) (hhigh : x ≤ 32767) :
    (m.writeBytes a (xs.flatMap sampleBytes)).readSigned (a + 2 * k) 2 = x := by
  have hrecord := (m.holds_writeBytes a (xs.flatMap sampleBytes)).record length_sampleBytes hx
  exact hrecord.readSigned (by decide) hlow (by omega)

theorem readSigned_decodedFrom {u s : State} {k : Nat} (hk : k < s.len / 2) :
    (u.decodedFrom s).mem.readSigned (u.dst + 2 * k) 2 =
      clamp16 (quantize (s.mem.readSigned (s.src + 2 * k) 2)
        s.latched.regs.qstep.toNat s.latched.qfloor) := by
  obtain ⟨hlow, hhigh⟩ := clamp16_in_range (quantize (s.mem.readSigned (s.src + 2 * k) 2)
    s.latched.regs.qstep.toNat s.latched.qfloor)
  refine readSigned_writeBytes_samples ?_ hlow hhigh
  rw [List.getElem?_map, getElem?_buckets hk, Option.map_some]

/-- SAT says whether some bucket is no sample. -/
theorem sat_decodedFrom (u s : State) : (u.decodedFrom s).status.sat = true ↔
    ∃ k, k < s.len / 2 ∧ outOfRange (quantize (s.mem.readSigned (s.src + 2 * k) 2)
      s.latched.regs.qstep.toNat s.latched.qfloor) = true := by
  have hruns : (u.decodedFrom s).status.sat = true ↔ ∃ b ∈ s.buckets, outOfRange b = true :=
    List.any_eq_true.trans (exists_mem_rleAud (P := fun b => outOfRange b = true))
  rw [hruns]
  simp [State.buckets, State.samples, State.srcReadSigned]

/-! What `clamp16` makes of a sample's bucket (43_audio_rle.md R186). -/

section
variable {x : Int} {q : Nat}

theorem clamp16_quantize_trunc (hq : 1 ≤ q) (hlow : -32768 ≤ x) (hhigh : x ≤ 32767) :
    clamp16 (quantize x q false) = Int.tdiv x q * q := by
  obtain ⟨hblow, hbhigh⟩ := quantize_trunc_in_range hq hlow hhigh
  exact clamp16_of_in_range hblow hbhigh

theorem outOfRange_quantize_trunc (hq : 1 ≤ q) (hlow : -32768 ≤ x) (hhigh : x ≤ 32767) :
    ¬ outOfRange (quantize x q false) = true := by
  have := quantize_trunc_in_range hq hlow hhigh
  rw [outOfRange_iff]
  omega

theorem clamp16_quantize_floor (hq : 1 ≤ q) (hhigh : x ≤ 32767) :
    clamp16 (quantize x q true) = max (-32768) (Int.fdiv x q * q) :=
  clamp16_of_le ((quantize_floor_bounds hq x).2.trans hhigh)

/-- A floor bucket is never too large. -/
theorem outOfRange_quantize_floor (hq : 1 ≤ q) (hhigh : x ≤ 32767) :
    outOfRange (quantize x q true) = true ↔ Int.fdiv x q * q < -32768 := by
  rw [outOfRange_iff]
  exact or_iff_left (not_lt.mpr ((quantize_floor_bounds hq x).2.trans hhigh))

theorem clamp16_quantize_one (f : Bool) (hlow : -32768 ≤ x) (hhigh : x ≤ 32767) :
    clamp16 (quantize x 1 f) = x := by
  rw [quantize_of_dvd (by simp), clamp16_of_in_range hlow hhigh]

end

/-- The AUD_* registers take the encoder's values back. -/
theorem withAudio_audioParams (r : OperandRegs) (s : State) :
    (r.withAudio s.audioParams).audChannels = s.latched.regs.audChannels ∧
      (r.withAudio s.audioParams).audSwidth = s.latched.regs.audSwidth ∧
      (r.withAudio s.audioParams).audRate = s.latched.regs.audRate ∧
      (r.withAudio s.audioParams).audFrames = s.latched.regs.audFrames := by
  simp [State.audioParams]

end Sys2Proof.Machine

namespace Sys2Proof.Proofs

open Sys2Proof Sys2Proof.Machine

/-- Settles O32: the pseudocode is its list of checks, and the layout of 30_encoding.md R92 is the
artifact. -/
theorem audEncodeFollowsItsRule : Obligations.AudEncodeFollowsItsRule := by
  intro s
  simp only [spec_buckets_eq, spec_len_eq, operands_eq_latched, spec_stored_eq, spec_audioLayout_eq,
    ← length_audArtifact s.audioParams s.latched.regs.qstep.toNat]
  exact exec_of_endsWith (audEncode_eq s)

/-- Settles O33: the pseudocode, with the parser's in its place, is its list of checks. -/
theorem audDecodeFollowsItsRule : Obligations.AudDecodeFollowsItsRule := by
  refine fun s => ⟨clamp16_eq_saturate, ?_⟩
  simp only [spec_audioRuns_eq, spec_field_eq, ← flatMap_sampleBytes_expand, ← any_outOfRange]
  have h := audDecode_eq s
  rw [decodedAudio_eq] at h
  exact exec_of_endsWith h

/-- Settles O47: the artifact in memory passes the parser, which reads the encoder's runs back, these
expand to the buckets, and a bucket leaves the range of the samples only below it, in mode 1. -/
theorem audioRoundTripIsQuantization : Obligations.AudioRoundTripIsQuantization := by
  intro s t u ht herr hsrc hlen hread hsrcOk hdstOk hcap
  obtain ⟨y, out, hok, rfl⟩ := exec_of_err_none ht herr
  obtain ⟨hmem, hout⟩ := audEncode_ok_holds hok
  simp only [spec_src_eq, spec_dst_eq, spec_len_eq, spec_cap_eq, operands_eq_latched, hout]
    at hsrc hlen hcap ⊢
  have hholds := holds_of_agrees_on_source hlen hread (hsrc ▸ hmem)
  have hdec := audDecode_of_holds hok hholds hlen hsrcOk hdstOk hcap
  obtain ⟨-, -, -, -, -, hq, hqmax, -⟩ := audEncode_ok.mp hok
  have hq := Nat.pos_of_ne_zero hq
  obtain ⟨hch, hsw, hrate, hfr⟩ := withAudio_audioParams u.regs s
  have hlow := fun k => (s.mem.readSigned_two_in_range (s.src + 2 * k)).1
  have hhigh := fun k => (s.mem.readSigned_two_in_range (s.src + 2 * k)).2
  have hsat := sat_decodedFrom u s
  have hsample := fun k => readSigned_decodedFrom (u := u) (s := s) (k := k)
  refine ⟨_, exec_of_ok hdec, rfl, resultOf_ok_outLen (i := .audDecode) hdec, hsample, hch, hsw, hrate,
    hfr, fun hf => ?_, fun hf => ?_, fun hone k hk => ?_⟩
  · rw [hf] at hsat hsample
    refine ⟨Bool.eq_false_iff.mpr fun h => ?_, fun k hk => ?_⟩
    · obtain ⟨k, -, hout⟩ := hsat.mp h
      exact outOfRange_quantize_trunc hq (hlow k) (hhigh k) hout
    · exact (hsample k hk).trans (clamp16_quantize_trunc hq (hlow k) (hhigh k))
  · rw [hf] at hsat hsample
    refine ⟨hsat.trans (exists_congr fun k => and_congr_right fun _ => ?_), fun k hk => ?_⟩
    · exact outOfRange_quantize_floor hq (hhigh k)
    · exact (hsample k hk).trans (clamp16_quantize_floor hq (hhigh k))
  · rw [hone] at hsample
    exact (hsample k hk).trans (clamp16_quantize_one _ (hlow k) (hhigh k))

end Sys2Proof.Proofs
end

section
/-! Issue and completion of a command (44_control.md R200 to R207). -/

namespace Sys2Proof.Machine

/-! ### The host leaves the command in flight alone (44_control.md R206) -/

theorem hostWriteReg_seq {s : State} {f : InFlight} (hs : s.seq = .busy f) (off : Nat) (v : Word) :
    (hostWriteReg s off v).seq = .busy f := by
  have hb := State.busy_of_seq hs
  obtain h | ⟨hidle, -⟩ | ⟨-, h⟩ | h | h | ⟨hidle, -⟩ := hostWriteReg_cases s off v
  · rw [h, hs]
  · rw [hb] at hidle; cases hidle
  · rw [h, hs]
  · rw [h, hs]
  · rw [h, hs]
  · rw [hb] at hidle; cases hidle

theorem hostStep_seq {s t : State} {f : InFlight} {a : HostAction} (hs : s.seq = .busy f)
    (h : hostStep s a = .next t) : t.seq = .busy f := by
  obtain ⟨r, rfl⟩ | rfl | rfl | ⟨off, v, rfl⟩ | ⟨x, b, -, -, rfl⟩ := hostStep_cases h
  · exact hs
  · exact hs
  · exact hs
  · exact hostWriteReg_seq hs off v
  · exact hs

/-! ### Completion (44_control.md R201, R204) -/

theorem exists_decode_error {w : Word}
    (h : w.extractLsb' 8 24 ≠ 0#24 ∨ 0x0C ≤ (w.extractLsb' 0 8).toNat) :
    ∃ r, decode w = .error r := by
  by_cases hm : mbzField w = 0#24
  · exact ⟨_, (decode_of_mbz_zero hm).trans (decodeOp_reserved (h.resolve_left (not_not_intro hm)))⟩
  · exact ⟨_, decode_of_mbz_ne_zero hm⟩

/-- What every completion does, success or failure (60_exceptions.md R211, R213). -/
theorem exec_completes {i : Instr} {s t : State} (h : exec i s = .next t) :
    t.seq = .idle ∧ t.status.done = true ∧ t.status.lost = s.status.lost ∧ t.agenda = s.agenda ∧
      (t.status.err ≠ .none → t.outLen = 0) := by
  obtain ⟨u, out, hr, rfl⟩ | ⟨e, -, rfl⟩ := exec_cases h
  · have hframe := resultOf_ok_sameFrame hr
    exact ⟨rfl, rfl, hframe.lost, hframe.agenda, fun herr => absurd rfl herr⟩
  · exact ⟨rfl, rfl, rfl, rfl, fun _ => rfl⟩

/-! ### The document-level commands with other tables (44_control.md R207) -/

/-! The bytes that an encoder stores do not depend on the tables, said apart from the store: the
unifier would evaluate a store of bytes that are equal only up to unfolding. -/

theorem imgOutput_setTables (s : State) (T : Tables) : (s.setTables T).imgOutput = s.imgOutput := rfl

theorem audOutput_setTables (s : State) (T : Tables) : (s.setTables T).audOutput = s.audOutput := rfl

theorem storeBytes_setTables (s : State) (T : Tables) (bs : List Byte) :
    (s.setTables T).storeBytes bs = (s.storeBytes bs).setTables T := rfl

/-- A document-level command has the same checks whatever the tables are, and its success differs in
the tables alone. -/
theorem resultOf_setTables {i : Instr} (s : State) (T : Tables)
    (hi : i ∈ [Instr.textEncode, .imgEncode, .imgDecode, .audEncode, .audDecode]) :
    ∃ c u out, resultOf i s = endsWith c (u, out) ∧
      resultOf i (s.setTables T) =
        endsWith c (u.setTables (tablesAfter (s.setTables T) i), out) := by
  simp only [List.mem_cons, List.not_mem_nil, or_false] at hi
  obtain rfl | rfl | rfl | rfl | rfl := hi
  · exact ⟨_, _, _, textEncode_eq s, textEncode_eq (s.setTables T)⟩
  · exact ⟨_, _, _, imgEncode_eq s, (imgEncode_eq (s.setTables T)).trans (by
      rw [imgOutput_setTables, storeBytes_setTables]; rfl)⟩
  · exact ⟨_, _, _, imgDecode_eq s, imgDecode_eq (s.setTables T)⟩
  · exact ⟨_, _, _, audEncode_eq s, (audEncode_eq (s.setTables T)).trans (by
      rw [audOutput_setTables, storeBytes_setTables]; rfl)⟩
  · exact ⟨_, _, _, audDecode_eq s, audDecode_eq (s.setTables T)⟩

end Sys2Proof.Machine

namespace Sys2Proof.Proofs

open Sys2Proof Sys2Proof.Machine

/-- Settles O6: the engine's turn and a reset apart, a step is a host action, and none of these writes
the sequencer while BUSY. -/
theorem noCommandIsAborted : Obligations.NoCommandIsAborted := by
  refine ⟨fun s t f hs ht => ?_, fun s f v es hs h => ?_⟩
  · match ha : s.agenda with
    | [] => exact .inr (.inl ⟨[], .inl ⟨ha, rfl⟩⟩)
    | .engine :: es => exact .inr (.inl ⟨es, .inr ha⟩)
    | .reset :: es => exact .inr (.inr ⟨es, rfl⟩)
    | .host a :: es =>
      rw [step_of_host ha] at ht
      exact .inl (hostStep_seq (s := s.popEvent) hs ht)
  · obtain ⟨-, hbusy, -⟩ := hostWriteFollowsItsRule s v es
    exact hbusy h (State.busy_of_seq hs)

/-- Settles O7: a word that decodes completes as its command, any other as an illegal word. -/
theorem engineTurnCompletesTheCommand : Obligations.EngineTurnCompletesTheCommand := by
  intro s f es hs hnext
  rw [step_of_engineNext hnext]
  cases hd : decode f.word with
  | ok i =>
    rw [engineTurn_ok (s := { s with agenda := es }) hs hd]
    have hexec := exec_eq_finish i { s with agenda := es }
    exact ⟨_, hexec, exec_completes hexec⟩
  | error r =>
    exact ⟨_, engineTurn_illegal (s := { s with agenda := es }) hs hd, rfl, rfl, rfl, rfl, fun _ => rfl⟩

/-- Settles O55: a raise leaves the tables that were there; a success leaves those that the command
makes, which for TEXT_ENCODE are functions of the source. -/
theorem artifactCommandsIgnoreOldTables : Obligations.ArtifactCommandsIgnoreOldTables := by
  intro i s t T hi ht
  obtain ⟨c, u, out, hr, hrT⟩ := resultOf_setTables s T hi
  cases c with
  | none =>
    obtain rfl : u.succeeded out = t := by simpa [exec_of_ok hr] using ht
    refine ⟨_, exec_of_ok hrT, rfl, ?_, fun hne => ?_⟩
    · rintro rfl -
      exact (resultOf_ok_tables hr).symm
    · exact tablesAfter_unchanged (s.setTables T) (by revert hi hne; cases i <;> decide)
  | some e =>
    obtain rfl : s.failed e = t := by simpa [exec_of_error hr] using ht
    exact ⟨_, exec_of_error hrT, rfl, fun _ herr => absurd herr (resultOf_error_ne_none hr), fun _ => rfl⟩

/-- Settles O3: the turn's agenda and the turn's word. -/
theorem stepRunsTheDecodedCommand : Obligations.StepRunsTheDecodedCommand := fun s _ _ es hs hd hnext =>
  (step_of_engineNext hnext).trans (engineTurn_ok (s := { s with agenda := es }) hs hd)

/-- Settles O4: acceptance does not look at the word, and the decoder rejects it at completion. -/
theorem illegalWordReportsIllegalCommand : Obligations.IllegalWordReportsIllegalCommand := by
  refine ⟨fun s w es _ hb h => ⟨_, (hostWriteFollowsItsRule s w es).1 h hb, rfl, rfl⟩,
    fun s f es hill hs hnext => ?_⟩
  obtain ⟨r, hd⟩ := exists_decode_error hill
  exact (step_of_engineNext hnext).trans (engineTurn_illegal (s := { s with agenda := es }) hs hd)

/-- Settles O5: the step is `accept`, and IRQ is low because DONE is cleared. -/
theorem acceptanceFollowsItsRule : Obligations.AcceptanceFollowsItsRule := fun s w es hs h =>
  ⟨_, (hostWriteFollowsItsRule s w es).1 h ((State.busy_eq_false_iff s).mpr hs), Bool.and_false _, rfl⟩

/-- Settles O22: NOP has no check and no change of its own. -/
theorem nopFollowsItsRule : Obligations.NopFollowsItsRule := fun _ =>
  exec_of_ok (nop_ok.mpr ⟨rfl, rfl⟩)

end Sys2Proof.Proofs
end

section
/-! Errors and the interrupt (60_exceptions.md R210, R213, R220). -/

namespace Sys2Proof.Machine

/-! ### The interrupt wire (60_exceptions.md R220) -/

@[simp] theorem State.succeeded_irq (s : State) (out : Nat) : (s.succeeded out).irq = s.ctrl.irqEn :=
  Bool.and_true _

@[simp] theorem State.failed_irq (s : State) (e : ErrCode) : (s.failed e).irq = s.ctrl.irqEn :=
  Bool.and_true _

@[simp] theorem State.accept_irq (s : State) (w : Word) : (s.accept w).irq = false := Bool.and_false _

@[simp] theorem resetPulse_irq (s : State) : (resetPulse s).irq = false := rfl

theorem exec_irq {i : Instr} {s t : State} (h : exec i s = .next t) : t.irq = s.ctrl.irqEn := by
  obtain ⟨u, out, hr, rfl⟩ | ⟨e, -, rfl⟩ := exec_cases h
  · rw [State.succeeded_irq, (resultOf_ok_sameFrame hr).ctrl]
  · exact State.failed_irq s e

/-- Every completion raises IRQ when it is enabled, that of an illegal word too. -/
theorem engineTurn_irq {s t : State} {f : InFlight} (hs : s.seq = .busy f)
    (h : engineTurn s = .next t) : t.irq = s.ctrl.irqEn := by
  obtain ⟨hidle, -⟩ | ⟨-, -, ⟨i, -, hexec⟩ | ⟨-, rfl⟩⟩ := engineTurn_cases h
  · rw [hs] at hidle
    cases hidle
  · exact exec_irq hexec
  · exact State.failed_irq s _

/-! ### Who reports which code (60_exceptions.md R210) -/

theorem none_mem_mayReport (i : Instr) : ErrCode.none ∈ Spec.mayReport i := by
  cases i <;> decide

/-- ILLEGAL_COMMAND is no command's own error (44_control.md R204). -/
theorem illegalCommand_notMem_mayReport (i : Instr) : ErrCode.illegalCommand ∉ Spec.mayReport i := by
  cases i <;> decide

theorem exec_err_mem_mayReport {i : Instr} {s t : State} (h : exec i s = .next t) :
    t.status.err ∈ Spec.mayReport i := by
  obtain ⟨u, out, -, rfl⟩ | ⟨e, hr, rfl⟩ := exec_cases h
  · exact none_mem_mayReport i
  · exact List.mem_of_mem_tail (resultOf_raisesOnly i s e hr)

end Sys2Proof.Machine

namespace Sys2Proof.Proofs

open Sys2Proof Sys2Proof.Machine

/-- Settles O18: IRQ after a completion, and after each write of STATUS, CTRL and CMD and a reset, by
the state that each of these steps leaves. -/
theorem irqIsTheLevelOfEnableAndDone : Obligations.IrqIsTheLevelOfEnableAndDone := by
  refine ⟨fun _ => rfl, fun s t f es hs hnext ht => ?_, fun s t v es ht => ?_⟩
  · rw [step_of_engineNext hnext] at ht
    exact engineTurn_irq (s := { s with agenda := es }) hs ht
  · obtain ⟨hcmd, -, hstatus, hctrl, -⟩ := hostWriteFollowsItsRule s v es
    refine ⟨fun h hv => ?_, fun h => ?_, fun h hb => ?_, fun h => ?_⟩
    · rw [hstatus h, Host.Outcome.next.injEq] at ht
      simp [← ht, State.irq, hv]
    · rw [hctrl h, Host.Outcome.next.injEq] at ht
      rw [← ht, State.irq]
    · rw [hcmd h hb, Host.Outcome.next.injEq] at ht
      rw [← ht]
      exact State.accept_irq { s with agenda := es } v
    · rw [step_of_reset h, Host.Outcome.next.injEq] at ht
      rw [← ht, resetPulse_irq]

/-- Settles O51: a failure is `State.failed` of the code that it reports. -/
theorem failedCommandChangesStatusAndOutLenOnly :
    Obligations.FailedCommandChangesStatusAndOutLenOnly := by
  intro i s t ht herr
  obtain ⟨-, hfailed⟩ := exec_of_err_ne_none ht herr
  exact ⟨hfailed, fun hsat => (congrArg (·.status.sat) hfailed).trans hsat⟩

/-- Settles O53: no command raises ILLEGAL_COMMAND, so only a word that decodes to no command reports
it. -/
theorem errorCodesAndWhoReportsThem : Obligations.ErrorCodesAndWhoReportsThem := by
  refine ⟨rfl, fun _ _ _ => exec_err_mem_mayReport, fun s t f es hs hnext ht => ?_⟩
  rw [step_of_engineNext hnext] at ht
  cases hd : decode f.word with
  | ok i =>
    rw [engineTurn_ok (s := { s with agenda := es }) hs hd] at ht
    have hmem := exec_err_mem_mayReport ht
    exact ⟨fun herr => absurd (herr ▸ hmem) (illegalCommand_notMem_mayReport i),
      fun hall => absurd rfl (hall i)⟩
  | error r =>
    rw [engineTurn_illegal (s := { s with agenda := es }) hs hd, Host.Outcome.next.injEq] at ht
    simp [← ht]

end Sys2Proof.Proofs
end

section
/-! Reset and the bound on BUSY (70_reset_and_hazards.md R240, R241, R248). -/

namespace Sys2Proof.Machine

open Spec (InSrc InDst EngineNext)

/-! ### The state that a reset leaves (R240) -/

/-- No register's reset value depends on what a reset keeps: parameters, memory, agenda, response and
draws. -/
theorem resetPulse_readReg (s : State) (r : Reg) : (resetPulse s).readReg r = State.reset.readReg r := by
  cases r <;> rfl

theorem resetPulse_readReg_of_mem_resetColumn (s : State) :
    ∀ p ∈ Spec.resetColumn, (resetPulse s).readReg p.1 = p.2 := by
  simp only [resetPulse_readReg]
  decide

/-- While IDLE a reset changes no byte of buffer memory. -/
theorem resetPulse_mem_of_idle {s : State} (h : s.busy = false) : (resetPulse s).mem = s.mem := by
  rw [resetPulse_mem, scrambledAddrs_idle h]
  rfl

theorem Memory.sound_nil (p : Params) : (Memory.mk []).Sound p :=
  ⟨rfl, fun _ h => absurd h List.not_mem_nil⟩

theorem Tables.sound_reset (p : Params) : Tables.reset.Sound p :=
  Tables.reset.sound_withFreq rfl (Nat.zero_le _) (Nat.zero_le _)

/-! ### The bytes that a reset leaves free (R241) -/

theorem mem_scrambledAddrs_iff {s : State} (hb : s.busy = true) (a : Nat) :
    a ∈ s.scrambledAddrs ↔ InDst s a ∧ ¬ InSrc s a ∧ a < s.params.memSize := by
  rw [mem_scrambledAddrs, beingWritten_iff]
  simp only [hb, true_and, and_assoc]

theorem nodup_scrambledAddrs (s : State) : s.scrambledAddrs.Nodup :=
  (List.nodup_range.map (add_right_injective s.dst)).filter _

/-- A scrambled byte holds the draw of its place in the list. -/
theorem Memory.read_scramble_inside {m : Memory} {n a : Nat} {as : List Nat} (hnd : as.Nodup)
    (ha : a ∈ as) : (m.scramble n as).read a = Config.freeByte (n + as.idxOf a) := by
  induction as generalizing m n with
  | nil => cases ha
  | cons b bs ih =>
    obtain ⟨hb, hbs⟩ := List.nodup_cons.mp hnd
    rw [Memory.scramble]
    by_cases hab : b = a
    · subst hab
      rw [Memory.read_scramble_outside hb, Memory.read_write_self, List.idxOf_cons_self, Nat.add_zero]
    · rw [ih hbs (List.mem_of_ne_of_mem (Ne.symm hab) ha), List.idxOf_cons_ne bs hab,
        Nat.succ_add_eq_add_succ]

/-- The number of the draw that a reset gives the byte at `a`. A byte that it does not scramble gets a
number past all draws of the reset, so that no two addresses share one. -/
def State.resetDraw (s : State) (a : Nat) : Nat :=
  s.draws + if a ∈ s.scrambledAddrs then s.scrambledAddrs.idxOf a else s.scrambledAddrs.length + a

theorem State.resetDraw_of_mem {s : State} {a : Nat} (h : a ∈ s.scrambledAddrs) :
    s.resetDraw a = s.draws + s.scrambledAddrs.idxOf a := by
  rw [State.resetDraw, if_pos h]

theorem State.resetDraw_of_not_mem {s : State} {a : Nat} (h : a ∉ s.scrambledAddrs) :
    s.resetDraw a = s.draws + (s.scrambledAddrs.length + a) := by
  rw [State.resetDraw, if_neg h]

/-- The new draws are those of the scrambled bytes. -/
theorem State.resetDraw_lt_iff (s : State) (a : Nat) :
    s.resetDraw a < (resetPulse s).draws ↔ a ∈ s.scrambledAddrs := by
  rw [resetPulse_draws]
  by_cases ha : a ∈ s.scrambledAddrs
  · have hlt := List.idxOf_lt_length_of_mem ha
    rw [State.resetDraw_of_mem ha]
    exact iff_of_true (by omega) ha
  · rw [State.resetDraw_of_not_mem ha]
    exact iff_of_false (by omega) ha

theorem State.resetDraw_injective (s : State) : Function.Injective s.resetDraw := by
  intro a b hab
  have hiff : a ∈ s.scrambledAddrs ↔ b ∈ s.scrambledAddrs := by
    rw [← State.resetDraw_lt_iff, ← State.resetDraw_lt_iff, hab]
  by_cases ha : a ∈ s.scrambledAddrs
  · rw [State.resetDraw_of_mem ha, State.resetDraw_of_mem (hiff.mp ha), Nat.add_left_cancel_iff] at hab
    exact (List.idxOf_inj ha).mp hab
  · rw [State.resetDraw_of_not_mem ha, State.resetDraw_of_not_mem (mt hiff.mpr ha)] at hab
    omega

theorem resetPulse_read_scrambled {s : State} {a : Nat} (h : a ∈ s.scrambledAddrs) :
    (resetPulse s).mem.read a = Config.freeByte (s.resetDraw a) := by
  rw [resetPulse_mem, Memory.read_scramble_inside (nodup_scrambledAddrs s) h, State.resetDraw_of_mem h]

theorem resetPulse_read_kept {s : State} {a : Nat} (h : a ∉ s.scrambledAddrs) :
    (resetPulse s).mem.read a = s.mem.read a := by
  rw [resetPulse_mem, Memory.read_scramble_outside h]

/-! ### The agenda is served (R248) -/

theorem hostWriteReg_agenda (s : State) (off : Nat) (v : Word) :
    (hostWriteReg s off v).agenda = s.agenda := by
  obtain h | ⟨-, h⟩ | ⟨-, h⟩ | h | h | ⟨-, g, i, j, h⟩ := hostWriteReg_cases s off v <;>
    simp [h]

theorem hostStep_agenda {s t : State} {a : HostAction} (h : hostStep s a = .next t) :
    t.agenda = s.agenda := by
  obtain ⟨r, rfl⟩ | rfl | rfl | ⟨off, v, rfl⟩ | ⟨x, b, -, -, rfl⟩ := hostStep_cases h
  · rfl
  · rfl
  · rfl
  · exact hostWriteReg_agenda s off v
  · rfl

section
variable {M : Host.Core} {s : M.State}

theorem run_of_next {t : M.State} (h : M.step s = .next t) (k : Nat) :
    M.run (k + 1) s = M.run k t := by
  rw [Host.Core.run, h]

theorem run_of_fault {r : M.Fault} (h : M.step s = .fault r) (k : Nat) :
    M.run (k + 1) s = .fault r := by
  rw [Host.Core.run, h]

theorem run_of_refused {r : M.Refusal} (h : M.step s = .refused r) (k : Nat) :
    M.run (k + 1) s = .refused r := by
  rw [Host.Core.run, h]

end

/-- After `k` steps no command is in flight, or an access of the host has stopped the run. -/
def EndsBy (k : Nat) (s : State) : Prop :=
  (∃ t, Host.Core.run Sys2Proof.core k s = .next t ∧ t.busy = false) ∨
    (∃ r, Host.Core.run Sys2Proof.core k s = .fault r) ∨
    (∃ r, Host.Core.run Sys2Proof.core k s = .refused r)

theorem EndsBy.of_step {k : Nat} {s t : State} (h : step s = .next t) (ht : EndsBy k t) :
    EndsBy (k + 1) s := by
  rwa [EndsBy, run_of_next (M := Sys2Proof.core) h]

theorem endsBy_one_of_idle {s t : State} (h : step s = .next t) (ht : t.seq = .idle) : EndsBy 1 s :=
  .inl ⟨t, run_of_next (M := Sys2Proof.core) h 0, (State.busy_eq_false_iff t).mpr ht⟩

theorem endsBy_one_of_fault {s : State} {r : Fault} (h : step s = .fault r) : EndsBy 1 s :=
  .inr (.inl ⟨r, run_of_fault (M := Sys2Proof.core) h 0⟩)

theorem endsBy_one_of_refused {s : State} {r : Refusal} (h : step s = .refused r) : EndsBy 1 s :=
  .inr (.inr ⟨r, run_of_refused (M := Sys2Proof.core) h 0⟩)

theorem endsBy_one_of_engineNext {s : State} {f : InFlight} {es : List Event} (hs : s.seq = .busy f)
    (hnext : EngineNext s es) : EndsBy 1 s := by
  obtain ⟨t, hstep, hidle, -⟩ := Proofs.engineTurnCompletesTheCommand s f es hs hnext
  exact endsBy_one_of_idle hstep hidle

/-- The engine's turn and a reset end the command at once; a host access either stops the run or
leaves the command in flight with one event less to serve. -/
theorem exists_endsBy {s : State} {f : InFlight} {es : List Event} (hs : s.seq = .busy f)
    (ha : s.agenda = es) : ∃ k, k ≤ es.length + 1 ∧ EndsBy k s := by
  induction es generalizing s with
  | nil => exact ⟨1, Nat.le_refl 1, endsBy_one_of_engineNext hs (.inl ⟨ha, rfl⟩)⟩
  | cons e es ih =>
    have hone : 1 ≤ (e :: es).length + 1 := Nat.le_add_left ..
    cases e with
    | engine => exact ⟨1, hone, endsBy_one_of_engineNext hs (.inr ha)⟩
    | reset => exact ⟨1, hone, endsBy_one_of_idle (step_of_reset ha) rfl⟩
    | host a =>
      have hstep : step s = hostStep { s with agenda := es } a := by
        rw [step_of_host ha, popEvent_of_cons ha]
      cases hr : hostStep { s with agenda := es } a with
      | next t =>
        have hbusy : t.seq = .busy f := hostStep_seq (s := { s with agenda := es }) hs hr
        obtain ⟨k, hk, hend⟩ := ih hbusy (hostStep_agenda hr)
        exact ⟨k + 1, Nat.succ_le_succ hk, hend.of_step (hstep.trans hr)⟩
      | fault r => exact ⟨1, hone, endsBy_one_of_fault (hstep.trans hr)⟩
      | refused r => exact ⟨1, hone, endsBy_one_of_refused (hstep.trans hr)⟩

end Sys2Proof.Machine

namespace Sys2Proof.Proofs

open Sys2Proof Sys2Proof.Machine

/-- Settles O8, by induction on the agenda. -/
theorem busyEndsOnceTheAgendaIsServed : Obligations.BusyEndsOnceTheAgendaIsServed := by
  intro s hb
  obtain ⟨f, hs⟩ := (statusWordLayout s).1.mp hb
  exact exists_endsBy hs rfl

/-- Settles O60: the scrambled bytes are the destination bytes that are no source bytes, and each has
the draw of its place among them. -/
theorem resetDuringACommand : Obligations.ResetDuringACommand := by
  intro s f es hs ha
  have hmem := mem_scrambledAddrs_iff (s := { s with agenda := es }) (State.busy_of_seq hs)
  refine ⟨resetPulse { s with agenda := es }, by rw [step_of_reset ha, popEvent_of_cons ha], rfl,
    resetPulse_readReg_of_mem_resetColumn _, fun a hkept => resetPulse_read_kept ?_,
    State.resetDraw { s with agenda := es }, fun _ _ h => State.resetDraw_injective _ h,
    fun a hdst hsrc hlt => ?_⟩
  · rw [hmem]
    rintro ⟨hdst, hsrc, hlt⟩
    rcases hkept with h | h | h
    exacts [hsrc h, h hdst, Nat.not_le.mpr hlt h]
  · have hin := (hmem a).mpr ⟨hdst, hsrc, hlt⟩
    exact ⟨Nat.le_add_right .., (State.resetDraw_lt_iff _ a).mpr hin, resetPulse_read_scrambled hin⟩

/-- Settles O56: an IDLE block with an unwritten memory and empty tables. -/
theorem resetMeetsTheInvariant : Obligations.ResetMeetsTheInvariant := fun p hp =>
  State.inv_of_idle hp (Memory.sound_nil p) (Tables.sound_reset p) rfl

/-- Settles O59: the step is the reset pulse, which scrambles nothing while IDLE. -/
theorem resetGivesTheResetColumn : Obligations.ResetGivesTheResetColumn := fun s _ ha =>
  ⟨resetPulse s.popEvent, step_of_reset ha, resetPulse_readReg_of_mem_resetColumn _, rfl, rfl, rfl, rfl,
    rfl, rfl, rfl, rfl, fun hidle => resetPulse_mem_of_idle (s := s.popEvent) hidle⟩

end Sys2Proof.Proofs
end
